-- ==== Sys2Proof/Word.lean ====
section
/-! DEFINITION. The word types of the block (00_scope.md R8, R10; 30_encoding.md R81). -/

namespace Sys2Proof

/-- A command word `CMD[35:0]` (30_encoding.md R81). -/
abbrev Word := BitVec 36

/-- The operand field `CMD[31:0]`, and a logical address as the port carries it (R10 `ADDR_W = 32`). -/
abbrev Arg := BitVec 32

/-- An operation code `CMD[35:32]` (R10 `OP_W = 4`). -/
abbrev Opcode := BitVec 4

/-- A page number, 0 to 255 (R8 `PAGE_BITS = 8`). -/
abbrev Page := BitVec 8

/-- An offset within a page or frame, 0 to 255 (R8 `OFFSET_BITS = 8`). -/
abbrev Offset := BitVec 8

/-- A frame index, 0 to 255 (R10 `FRAME_W = 8`). -/
abbrev Frame := BitVec 8

/-- One datum (R8 `DATA_W = 8`). -/
abbrev Byte := BitVec 8

/-- A 16-bit byte address: a physical address (R10 `PA_W = 16`), or an offset into the backing store
(20_memory.md R53). -/
abbrev Addr16 := BitVec 16

/-- The value of a statistics counter or of a status register (R10 `CNT_W = 32`, 10_state.md R37). -/
abbrev Count := BitVec 32

end Sys2Proof
end

