-- ==== Sys2Proof/Config.lean ====
section
/-! DEFINITION. What is fixed when the block is built, and the one free value of the model. -/

namespace Sys2Proof

/-- The build-time parameters of 00_scope.md R9. An illegal configuration (`TLB_CAP = 0`, `NUM_FRAMES`
outside 1 to 256) is refused by 93_implementation_defined.md U17: the proof fields make it a value that
cannot be built (notes/assumptions/12.md). -/
structure Config where
  /-- `TLB_CAP`, the capacity of the TLB in entries (41_tlb.md R128). -/
  tlbCap : Nat
  /-- `NUM_FRAMES`, the number of physical frames. -/
  numFrames : Nat
  tlbCap_pos : 1 ≤ tlbCap := by decide
  numFrames_pos : 1 ≤ numFrames := by decide
  numFrames_le : numFrames ≤ 256 := by decide
deriving DecidableEq, Repr

/-- The values this hardware takes (R9): 16 TLB entries, 256 frames. -/
def Config.thisHardware : Config := { tlbCap := 16, numFrames := 256 }

/-- `FRAME_SIZE = PAGE_SIZE = 256` bytes (R8). -/
def Config.frameSize : Nat := 256

/-- The byte of the backing store at an address that a state's `bs` does not list: a FREE VALUE.
The store's contents are the environment's, any 65536 bytes (20_memory.md R58; notes/assumptions/3.md). -/
opaque Config.storeByte : Nat → Byte

end Sys2Proof
end

