-- ==== Sys2Proof/Machine/State.lean ====
section
/-! DEFINITION. The state of the block (10_state.md), its ports (30_encoding.md R80) and the
environment's inputs (70_reset_and_hazards.md R240), as plain data. -/

namespace Sys2Proof.Machine

/-- One TLB entry (10_state.md R25). -/
structure TlbEntry where
  page : Page
  frame : Frame
deriving DecidableEq, Repr

/-- The three errors that halt the block (60_exceptions.md R201). -/
inductive Error where
  /-- The store answered `Err` (R202). -/
  | ioError
  /-- A page fault with no free frame (R203). -/
  | capacityExhausted
  /-- RDBYTE out of range (R204). -/
  | invalidAddress
deriving DecidableEq, Repr

/-- The status of a response (60_exceptions.md R201); codes 6 to 15 are never produced. -/
inductive Status where
  | ok
  | error (e : Error)
  /-- A command word the host port does not accept (R205). -/
  | illegalCommand
  /-- XLATE while HALTED (R206). -/
  | halted
deriving DecidableEq, Repr

/-- The response port (30_encoding.md R82). -/
structure Response where
  status : Status
  hit : Bool
  fault : Bool
  addr : Arg
  page : Page
  offset : Offset
  pa : Addr16
  value : Byte
  data : Count
deriving DecidableEq, Repr

/-- The outputs of a micro-operation that ran on its own, as the rules of files 40 to 43 name them
(notes/assumptions/8.md). -/
inductive BusResult where
  /-- DECODE (40_address_decoder.md R110). -/
  | decoded (page : Page) (offset : Offset)
  /-- TLBLKUP (41_tlb.md R120). -/
  | tlbFrame (frame : Option Frame)
  /-- PTLKUP: `some` when valid, `none` when not (42_page_table.md R140, R141). -/
  | ptEntry (entry : Option Frame)
  /-- SWAPIN (43_physical_memory.md R151). -/
  | loaded (frame : Frame)
  /-- RDBYTE (43_physical_memory.md R156). -/
  | byte (value : Byte)
  /-- TLBINS and PTMARK have no output (41_tlb.md R123, 42_page_table.md R143). -/
  | done
  /-- The operation raised an error (60_exceptions.md R200). -/
  | raised (e : Error)
deriving DecidableEq, Repr

/-- What is presented to the block next. -/
inductive Input where
  /-- The reset input is asserted (70_reset_and_hazards.md R230). -/
  | rst
  /-- A command word on the host's command port (30_encoding.md R80). -/
  | host (w : Word)
  /-- A micro-operation on the internal control bus, as the Translator drives it (30_encoding.md R84;
  notes/assumptions/8.md). -/
  | bus (w : Word)
deriving DecidableEq, Repr

/-- The store's answer to one read (20_memory.md R58). With `ok` the bytes are those of the image. -/
inductive BsAnswer where
  | ok
  | err
deriving DecidableEq, Repr

/-- The state: the nine elements of 10_state.md R23, the configuration, the ports, and the inputs. -/
structure State where
  /-- TLB, oldest entry first (10_state.md R24). -/
  tlb : List TlbEntry
  /-- PT: `some f` is a valid entry with frame `f`, `none` an invalid one (R28, 42_page_table.md R141). -/
  pt : Vector (Option Frame) 256
  /-- PM: the bytes written since reset, by physical address, addresses rising (R30). -/
  pm : List Host.Cell
  /-- next_frame (R31). -/
  nextFrame : BitVec 9
  /-- total_count (R33). -/
  totalCount : Count
  /-- fault_count (R33). -/
  faultCount : Count
  /-- hit_count (R33). -/
  hitCount : Count
  /-- HALTED, and the `halted` output, which equals it (R36, 60_exceptions.md R211). -/
  halted : Bool
  /-- CAUSE (R36). -/
  cause : BitVec 3
  /-- TLB_CAP and NUM_FRAMES, the constants of CONFIG (R40). No step writes it. -/
  config : Config
  /-- The response to the last host command of this run (30_encoding.md R80, R82). -/
  rsp : Option Response
  /-- The outputs of the last micro-operation run on its own: the model's field. -/
  bus : Option BusResult
  /-- `bs_req_page` while the block waits for the store (70_reset_and_hazards.md R244). -/
  bsReq : Option Page
  /-- What the environment presents next, in order. -/
  inputs : List Input
  /-- The store's answers to the reads to come, in order (20_memory.md R59). -/
  bsAnswers : List BsAnswer
  /-- The listed bytes of BS; an unlisted one is `Config.storeByte` (R58). No step writes it. -/
  bs : List Host.Cell
deriving DecidableEq, Repr

/-- The ways the model stops with a fault. -/
inductive Fault where
  /-- Raised by XLATE and RDBYTE: the byte at this physical address was not written since reset, so it has
  no value (93_implementation_defined.md U1, "a read of a byte never written is a `fault` of the model").
  Safe. -/
  | unwrittenByte (a : Addr16)
deriving DecidableEq, Repr

/-- The ways the model gives no meaning. -/
inductive Refusal where
  /-- Raised by an arm of `exec` that has no meaning yet; no arm uses it. Safe. -/
  | notModelled (mnemonic : String)
  /-- Raised by `step`: the word on the internal control bus is no micro-operation, which nobody issues
  there (30_encoding.md R84; notes/assumptions/14.md). Safe. -/
  | notABusOperation (r : Opcode)
deriving DecidableEq, Repr

/-- The block right after reset (10_state.md R47, 70_reset_and_hazards.md R230, R232): every element at the
value R47 states, the configuration of this hardware (00_scope.md R9), no response yet, and an environment
that presents nothing (notes/assumptions/1.md, 2.md, 3.md, 7.md). -/
def State.reset : State where
  tlb := []
  pt := Vector.replicate 256 none
  pm := []
  nextFrame := 0#9
  totalCount := 0#32
  faultCount := 0#32
  hitCount := 0#32
  halted := false
  cause := 0#3
  config := Config.thisHardware
  rsp := none
  bus := none
  bsReq := none
  inputs := []
  bsAnswers := []
  bs := []

end Sys2Proof.Machine
end

