-- ==== Sys2Proof/Machine/Flags.lean ====
section
/-! DEFINITION. Event flags, saturating counters, status and cause codes (10_state.md R33, R35;
60_exceptions.md R201). -/

namespace Sys2Proof.Machine

/-- The largest value of a counter, `2^CNT_W - 1` with `CNT_W = 32` (10_state.md R33). -/
def countMax : Nat := 4294967295

/-- A counter advanced by one event, `min(c + 1, 2^32 - 1)`, or kept (10_state.md R33, 44_translator.md
R178). -/
def satAdd (c : Count) (event : Bool) : Count :=
  if event then BitVec.ofNat 32 (min (c.toNat + 1) countMax) else c

/-- The three counters advanced at step 7 of XLATE, together (44_translator.md R178). -/
def State.countXlate (hit fault : Bool) (s : State) : State :=
  { s with
    totalCount := satAdd s.totalCount true
    faultCount := satAdd s.faultCount fault
    hitCount := satAdd s.hitCount hit }

/-- The code a halting error leaves in CAUSE (60_exceptions.md R201). -/
def causeCode (e : Error) : BitVec 3 :=
  match e with
  | .ioError => 1#3
  | .capacityExhausted => 2#3
  | .invalidAddress => 3#3

/-- The 4-bit `rsp_status` of a status (60_exceptions.md R201). -/
def statusCode (st : Status) : BitVec 4 :=
  match st with
  | .ok => 0#4
  | .error e => (causeCode e).setWidth 4
  | .illegalCommand => 4#4
  | .halted => 5#4

end Sys2Proof.Machine
end

