-- ==== Sys2Proof/Syntax.lean ====
section
/-! DEFINITION. The nine operations of the block, one constructor per row of spec/opcode_table.json
(30_encoding.md R84, R85). -/

namespace Sys2Proof

/-- An operation with its operands. XLATE and RDCSR keep the whole `arg`, because the response echoes it
(30_encoding.md R82); a micro-operation keeps the fields its layout names (R85). -/
inductive Instr where
  /-- Translate one logical address (44_translator.md R171). Host. -/
  | xlate (addr : Arg)
  /-- Read the status register `arg[3:0]` (44_translator.md R180). Host. -/
  | rdcsr (arg : Arg)
  /-- Split an address (40_address_decoder.md R110). Internal. -/
  | decode (addr : Arg)
  /-- Look a page up in the TLB (41_tlb.md R120). Internal. -/
  | tlblkup (page : Page)
  /-- Admit an entry to the TLB (41_tlb.md R123). Internal. -/
  | tlbins (page : Page) (frame : Frame)
  /-- Read a page-table entry (42_page_table.md R140). Internal. -/
  | ptlkup (page : Page)
  /-- Mark a page loaded (42_page_table.md R143). Internal. -/
  | ptmark (page : Page) (frame : Frame)
  /-- Service a page fault (43_physical_memory.md R151). Internal. -/
  | swapin (page : Page)
  /-- Read one byte of physical memory (43_physical_memory.md R156). Internal. -/
  | rdbyte (frame : Frame) (offset : Offset)
deriving DecidableEq, Repr

end Sys2Proof
end

