-- ==== Sys2Proof/WellFormed.lean ====
section
/-! DEFINITION. The operations a command word can stand for (30_encoding.md R88). -/

namespace Sys2Proof

/-- Register numbers 7 to 15 are reserved, so a RDCSR of one is no operation (10_state.md R37,
30_encoding.md R87). Every other operand value is legal (20_memory.md R55, 42_page_table.md R140). -/
def Instr.wellFormed : Instr → Bool
  | .xlate _ => true
  | .rdcsr arg => decide (arg.extractLsb' 0 4 ≤ 6#4)
  | .decode _ => true
  | .tlblkup _ => true
  | .tlbins _ _ => true
  | .ptlkup _ => true
  | .ptmark _ _ => true
  | .swapin _ => true
  | .rdbyte _ _ => true

end Sys2Proof
end

