-- ==== Sys2Proof/Decode.lean ====
section
/-! DEFINITION. Command words to operations and back (30_encoding.md R81, R84, R85, R87, R88, R89). -/

namespace Sys2Proof

/-- Why a command word stands for no operation (30_encoding.md R87). -/
inductive Reject where
  /-- The operation code is reserved: 0x0, 0x3, 0xB to 0xF (R84). -/
  | reservedOp (op : Opcode)
  /-- RDCSR of a reserved register, 7 to 15 (10_state.md R37). -/
  | reservedCsr (csr : BitVec 4)
  /-- An internal operation code, 0x4 to 0xA, on the host's command port (R87). -/
  | internalOp (op : Opcode)
  /-- A host operation code on the internal bus, where only micro-operations are issued (R84). -/
  | hostOp (op : Opcode)
deriving DecidableEq, Repr

/-- What a decoder answers. -/
inductive Decoded where
  | ok (i : Instr)
  | reject (r : Reject)
deriving DecidableEq, Repr

/-- `CMD[35:32]` (R81). -/
def opOf (w : Word) : Opcode := w.extractLsb' 32 4

/-- `CMD[31:0]` (R81). -/
def argOf (w : Word) : Arg := w.extractLsb' 0 32

/-- `arg[15:8]`: the page of TLBINS and PTMARK, the frame of RDBYTE (R85). -/
def argHigh (a : Arg) : BitVec 8 := a.extractLsb' 8 8

/-- `arg[7:0]`: the low operand of every micro-operation but DECODE (R85). -/
def argLow (a : Arg) : BitVec 8 := a.extractLsb' 0 8

/-- The operation a command word stands for, by its operation code (R84), with the operand layout of
R85. Operand bits that a layout does not name are ignored (R89). -/
def decode (w : Word) : Decoded :=
  let arg := argOf w
  match opOf w with
  | 0x1#4 => .ok (.xlate arg)
  | 0x2#4 => if (Instr.rdcsr arg).wellFormed then .ok (.rdcsr arg) else .reject (.reservedCsr (arg.extractLsb' 0 4))
  | 0x4#4 => .ok (.decode arg)
  | 0x5#4 => .ok (.tlblkup (argLow arg))
  | 0x6#4 => .ok (.tlbins (argHigh arg) (argLow arg))
  | 0x7#4 => .ok (.ptlkup (argLow arg))
  | 0x8#4 => .ok (.ptmark (argHigh arg) (argLow arg))
  | 0x9#4 => .ok (.swapin (argLow arg))
  | 0xA#4 => .ok (.rdbyte (argHigh arg) (argLow arg))
  | op => .reject (.reservedOp op)

/-- Which operations the host may issue (R84, R87; `issuable_on_host_port` of the opcode table). -/
def Instr.hostIssuable : Instr → Bool
  | .xlate _ => true
  | .rdcsr _ => true
  | .decode _ => false
  | .tlblkup _ => false
  | .tlbins _ _ => false
  | .ptlkup _ => false
  | .ptmark _ _ => false
  | .swapin _ => false
  | .rdbyte _ _ => false

/-- Decoding on the host's command port: XLATE, RDCSR of a defined register, or illegal (R87, R88). -/
def hostDecode (w : Word) : Decoded :=
  match decode w with
  | .ok i => if i.hostIssuable then .ok i else .reject (.internalOp (opOf w))
  | .reject r => .reject r

/-- Decoding on the Translator's internal control bus: the seven micro-operations (R84). -/
def busDecode (w : Word) : Decoded :=
  match decode w with
  | .ok i => if i.hostIssuable then .reject (.hostOp (opOf w)) else .ok i
  | .reject r => .reject r

/-- The operation code of R84. -/
def Instr.opcode : Instr → Opcode
  | .xlate _ => 0x1#4
  | .rdcsr _ => 0x2#4
  | .decode _ => 0x4#4
  | .tlblkup _ => 0x5#4
  | .tlbins _ _ => 0x6#4
  | .ptlkup _ => 0x7#4
  | .ptmark _ _ => 0x8#4
  | .swapin _ => 0x9#4
  | .rdbyte _ _ => 0xA#4

/-- The operand field of R85; ignored bits are driven as 0 (R89). -/
def Instr.operand : Instr → Arg
  | .xlate addr => addr
  | .rdcsr arg => arg
  | .decode addr => addr
  | .tlblkup page => (0#24 ++ page : BitVec 32)
  | .tlbins page frame => (0#16 ++ page ++ frame : BitVec 32)
  | .ptlkup page => (0#24 ++ page : BitVec 32)
  | .ptmark page frame => (0#16 ++ page ++ frame : BitVec 32)
  | .swapin page => (0#24 ++ page : BitVec 32)
  | .rdbyte frame offset => (0#16 ++ frame ++ offset : BitVec 32)

/-- The command word of an operation (R81). -/
def encode (i : Instr) : Word := (i.opcode ++ i.operand : BitVec 36)

/-- The operation the decoder reads from the command word whose bits are `w`, numbered as
spec/opcode_table.json numbers them. A command is one 36-bit word (R81, R90), so a number with a bit
above bit 35 is no command (notes/assumptions/9.md). -/
def decodeTableWord (nbits w : Nat) : Option Instr :=
  let v := w % 2 ^ nbits
  if v < 2 ^ 36 then
    match decode (BitVec.ofNat 36 v) with
    | .ok i => some i
    | .reject _ => none
  else none

end Sys2Proof
end

