-- ==== Sys2Proof/Machine/Operands.lean ====
section
/-! DEFINITION. The address formats and operand fields the operations share (20_memory.md R51 to R53). -/

namespace Sys2Proof.Machine

/-- The page number of a logical address, `addr[15:8]` (20_memory.md R51, 40_address_decoder.md R110). -/
def pageOf (addr : Arg) : Page := addr.extractLsb' 8 8

/-- The offset of a logical address, `addr[7:0]` (R51, R110). -/
def offsetOf (addr : Arg) : Offset := addr.extractLsb' 0 8

/-- The physical address `frame || offset` (20_memory.md R52, 00_scope.md R13(b)). -/
def physAddr (frame : Frame) (offset : Offset) : Addr16 := (frame ++ offset : BitVec 16)

/-- The backing-store offset of byte `k` of page `p`, `p || k` (20_memory.md R53, 00_scope.md R13(c)). -/
def storeAddr (page : Page) (k : BitVec 8) : Addr16 := (page ++ k : BitVec 16)

/-- The register number of a RDCSR, `arg[3:0]` (30_encoding.md R85). -/
def csrOf (arg : Arg) : BitVec 4 := arg.extractLsb' 0 4

/-- The 16 bits of a TLB entry, `page || frame` (10_state.md R25). -/
def tlbEntryBits (e : TlbEntry) : BitVec 16 := (e.page ++ e.frame : BitVec 16)

/-- The 9 bits of a valid page-table entry, `1 || frame` (10_state.md R28); the frame bits of an invalid
entry are unspecified, so such an entry has no 9 bits here. -/
def ptEntryBits (entry : Option Frame) : Option (BitVec 9) :=
  match entry with
  | some frame => some (1#1 ++ frame : BitVec 9)
  | none => none

end Sys2Proof.Machine
end

