-- ==== Sys2Proof/Machine/Ops.lean ====
section
/-! DEFINITION. The operations over the parts of the state that the meanings share: physical memory, the
backing store, the TLB, the page table, the response port, the error entry, and reset. -/

namespace Sys2Proof.Machine

/-! ### Memory: a list of cells, addresses strictly rising -/

/-- The value of the byte at `a`, none where no cell lists it. -/
def readCell (m : List Host.Cell) (a : Nat) : Option Byte :=
  (m.find? (fun c => c.1 == a)).map (fun c => c.2)

/-- `n` bytes as cells from address `base` up. -/
def cellsFrom (base : Nat) : List Byte → List Host.Cell
  | [] => []
  | b :: rest => (base, b) :: cellsFrom (base + 1) rest

/-- `MemWrite(base, n, bytes)` (00_scope.md R12): the bytes replace whatever stood at
`base .. base + n - 1`, every other cell stays. -/
def writeBlock (m : List Host.Cell) (base : Nat) (bytes : List Byte) : List Host.Cell :=
  m.filter (fun c => decide (c.1 < base)) ++ cellsFrom base bytes ++
    m.filter (fun c => decide (base + bytes.length ≤ c.1))

/-- The canonical form of a memory: addresses strictly rising. An unlisted address holds no value, so no
entry can equal what an unlisted address reads as (notes/assumptions/4.md). -/
def memoryWf (m : List Host.Cell) : Bool := decide (m.Pairwise (fun c d => c.1 < d.1))

/-! ### The backing store (20_memory.md R58) -/

/-- The byte of BS at a store offset: the listed one, else the free value (notes/assumptions/3.md). -/
def State.storeByte (s : State) (a : Addr16) : Byte :=
  (readCell s.bs a.toNat).getD (Config.storeByte a.toNat)

/-- The 256 bytes `d[0]` to `d[255]` that the port delivers for a page, `d[k] = BS[page * 256 + k]`. -/
def State.storePage (s : State) (page : Page) : List Byte :=
  (List.range Config.frameSize).map (fun k => s.storeByte (storeAddr page (BitVec.ofNat 8 k)))

/-! ### The TLB (41_tlb.md) -/

/-- The frame of the first entry, oldest first, whose page matches (R120). -/
def tlbFind (tlb : List TlbEntry) (page : Page) : Option Frame :=
  (tlb.find? (fun e => e.page == page)).map (fun e => e.frame)

/-- Append an entry as the newest, evicting the oldest when the TLB is full; no search for an entry of the
same page (R123, R127). -/
def tlbAppend (cap : Nat) (tlb : List TlbEntry) (e : TlbEntry) : List TlbEntry :=
  if tlb.length = cap then tlb.tail ++ [e] else tlb ++ [e]

/-- TLBLKUP on the state (R120). -/
def State.tlbLookup (s : State) (page : Page) : Option Frame := tlbFind s.tlb page

/-- TLBINS on the state (R123). -/
def State.tlbInsert (page : Page) (frame : Frame) (s : State) : State :=
  { s with tlb := tlbAppend s.config.tlbCap s.tlb { page := page, frame := frame } }

/-! ### The page table (42_page_table.md) -/

/-- PTLKUP on the state: the frame when the entry is valid (R140, R141). -/
def State.ptLookup (s : State) (page : Page) : Option Frame := s.pt[page.toNat]'page.isLt

/-- PTMARK on the state (R143). -/
def State.ptMark (page : Page) (frame : Frame) (s : State) : State :=
  { s with pt := s.pt.set page.toNat (some frame) page.isLt }

/-! ### Physical memory and the fault service (43_physical_memory.md) -/

/-- `PM[frame || offset]`, none where the byte was not written since reset (10_state.md R30, R47). -/
def State.pmByte (s : State) (frame : Frame) (offset : Offset) : Option Byte :=
  readCell s.pm (physAddr frame offset).toNat

/-- What RDBYTE finds. -/
inductive ReadResult where
  | value (b : Byte)
  /-- `frame >= NUM_FRAMES`; an offset of 256 or more cannot be expressed (R157). -/
  | outOfRange
  /-- In range, but the byte has no value (93_implementation_defined.md U1). -/
  | unwritten (a : Addr16)
deriving DecidableEq, Repr

/-- RDBYTE on the state (R156, R157). -/
def State.readByte (s : State) (frame : Frame) (offset : Offset) : ReadResult :=
  if s.config.numFrames ≤ frame.toNat then .outOfRange
  else
    match s.pmByte frame offset with
    | some b => .value b
    | none => .unwritten (physAddr frame offset)

/-- What SWAPIN comes to. -/
inductive SwapResult where
  /-- The store has not answered: the block waits (70_reset_and_hazards.md R244). -/
  | waiting
  /-- The operation raised an error; the state differs only by the answer the store gave (R154). -/
  | failed (e : Error) (s : State)
  /-- The page is loaded in this frame. -/
  | loaded (frame : Frame) (s : State)
deriving DecidableEq, Repr

/-- Fill a frame: `MemWrite(f * 256, 256, d)` with the page's bytes (R151). -/
def State.fillFrame (page : Page) (frame : Frame) (s : State) : State :=
  { s with pm := writeBlock s.pm (frame.toNat * Config.frameSize) (s.storePage page) }

/-- The store's answer to a read is consumed, and `rest` are the answers still to come (20_memory.md R58). -/
def State.takeAnswer (rest : List BsAnswer) (s : State) : State := { s with bsAnswers := rest }

/-- SWAPIN on the state: the store read, then the capacity check, then the fill, the counter, the mark
(R151, R152, R155). The frame is `next_frame[7:0]`, the value before the operation. -/
def State.swapIn (page : Page) (s : State) : SwapResult :=
  match s.bsAnswers with
  | [] => .waiting
  | .err :: rest => .failed .ioError (s.takeAnswer rest)
  | .ok :: rest =>
    if s.config.numFrames ≤ s.nextFrame.toNat then
      .failed .capacityExhausted (s.takeAnswer rest)
    else
      let frame : Frame := s.nextFrame.setWidth 8
      let filled := (s.takeAnswer rest).fillFrame page frame
      .loaded frame (State.ptMark page frame { filled with nextFrame := s.nextFrame + 1#9 })

/-! ### Ports -/

/-- A response with a status and the echoed operand, every other field 0 (30_encoding.md R82). -/
def Response.bare (status : Status) (addr : Arg) : Response where
  status := status
  hit := false
  fault := false
  addr := addr
  page := 0#8
  offset := 0#8
  pa := 0#16
  value := 0#8
  data := 0#32

/-- Drive the response port and be ready for the next command (30_encoding.md R80). -/
def State.respond (r : Response) (s : State) : State := { s with rsp := some r, bsReq := none }

/-- Drive the outputs of a micro-operation that ran on its own (notes/assumptions/8.md). -/
def State.busAnswer (r : BusResult) (s : State) : State := { s with bus := some r, bsReq := none }

/-- Drive `bs_req_page` and wait; nothing else changes (70_reset_and_hazards.md R244). -/
def State.awaitStore (page : Page) (s : State) : State := { s with bsReq := some page }

/-- The answer to a command word the host port does not accept: status IllegalCommand, no other change
(30_encoding.md R87, 60_exceptions.md R205). -/
def State.answerIllegal (arg : Arg) (s : State) : State := s.respond (Response.bare .illegalCommand arg)

/-- The level output `halted` (60_exceptions.md R211). -/
def State.haltedOutput (s : State) : Bool := s.halted

/-! ### Errors and reset -/

/-- The error entry: `HALTED <- 1`, `CAUSE <-` the code; nothing is saved and no handler runs
(60_exceptions.md R207). A halted block makes no further entry: CAUSE holds the first error of the run
(10_state.md R36, 60_exceptions.md R208). -/
def State.errorEntry (e : Error) (s : State) : State :=
  { s with halted := true, cause := if s.halted then s.cause else causeCode e }

/-- There is no return from an error but reset (60_exceptions.md R208): the reset values of 10_state.md R47,
with the configuration and the environment as they are and `rest` the inputs still to come
(70_reset_and_hazards.md R230; notes/assumptions/11.md). -/
def State.restart (rest : List Input) (s : State) : State :=
  { State.reset with config := s.config, bs := s.bs, bsAnswers := s.bsAnswers, inputs := rest }

/-! ### Status registers (10_state.md R37 to R40) -/

/-- STATUS, `zext_32(CAUSE || HALTED)` (R38). -/
def State.csrStatus (s : State) : Count := (s.cause ++ BitVec.ofBool s.halted : BitVec 4).setWidth 32

/-- ALLOC, `zext_32(next_frame)` (R40). -/
def State.csrAlloc (s : State) : Count := s.nextFrame.setWidth 32

/-- TLBCNT, `len(TLB)` in bits [4:0] (R37, R40; notes/assumptions/6.md). -/
def State.csrTlbCount (s : State) : Count := (BitVec.ofNat 5 s.tlb.length).setWidth 32

/-- CONFIG, `zext_32(NUM_FRAMES[8:0] || 0b000 || TLB_CAP[4:0])` (R40). -/
def State.csrConfig (s : State) : Count :=
  (BitVec.ofNat 9 s.config.numFrames ++ 0#3 ++ BitVec.ofNat 5 s.config.tlbCap : BitVec 17).setWidth 32

/-- The value of a status register, none for a reserved number (R37, 44_translator.md R180). -/
def State.csrRead (s : State) (csr : BitVec 4) : Option Count :=
  match csr with
  | 0#4 => some s.csrStatus
  | 1#4 => some s.totalCount
  | 2#4 => some s.faultCount
  | 3#4 => some s.hitCount
  | 4#4 => some s.csrAlloc
  | 5#4 => some s.csrTlbCount
  | 6#4 => some s.csrConfig
  | _ => none

end Sys2Proof.Machine
end

