-- ==== Sys2Proof/Machine/Accept.lean ====
section
/-! DEFINITION. Accepting the next input and retiring a command (30_encoding.md R80;
70_reset_and_hazards.md R231, R241, R244). -/

namespace Sys2Proof.Machine

/-- What the block finds at its inputs. -/
inductive Accepted where
  /-- Nothing is presented: the block is idle (60_exceptions.md R220). -/
  | idle
  /-- Reset, with the inputs that remain. -/
  | restart (rest : List Input)
  /-- A word the host port does not accept (30_encoding.md R87). -/
  | illegal (arg : Arg) (rest : List Input)
  /-- An operation to run. -/
  | run (i : Instr) (rest : List Input)
  /-- A word that is no micro-operation, on the internal bus. -/
  | notOnBus (op : Opcode)
deriving DecidableEq, Repr

/-- The command at the head waits for the store, no answer comes, and the host asserts reset: the command
is abandoned (70_reset_and_hazards.md R231). -/
def State.abandoned (s : State) (rest : List Input) : Bool :=
  s.bsReq.isSome && s.bsAnswers.isEmpty && decide (rest.head? = some .rst)

/-- Accept a command word of the host (30_encoding.md R87, R88). -/
def acceptHost (w : Word) (rest : List Input) : Accepted :=
  match hostDecode w with
  | .ok i => .run i rest
  | .reject _ => .illegal (argOf w) rest

/-- Accept a micro-operation on the internal bus (30_encoding.md R84). -/
def acceptBus (w : Word) (rest : List Input) : Accepted :=
  match busDecode w with
  | .ok i => .run i rest
  | .reject _ => .notOnBus (opOf w)

/-- The next input, one at a time and in order (70_reset_and_hazards.md R241). -/
def State.accept (s : State) : Accepted :=
  match s.inputs with
  | [] => .idle
  | .rst :: rest => .restart rest
  | .host w :: rest => if s.abandoned rest then .restart rest.tail else acceptHost w rest
  | .bus w :: rest => if s.abandoned rest then .restart rest.tail else acceptBus w rest

/-- A command leaves the input when it has been answered; one that waits for the store stays
(70_reset_and_hazards.md R241, R244). -/
def State.retire (rest : List Input) (s : State) : State :=
  if s.bsReq.isSome then s else { s with inputs := rest }

/-- Retire the command of a meaning's outcome. -/
def retireOutcome (rest : List Input) (o : Host.Outcome State Fault Refusal) :
    Host.Outcome State Fault Refusal :=
  match o with
  | .next t => .next (t.retire rest)
  | .fault r => .fault r
  | .refused r => .refused r

/-- Present a command word as the next input, where it may be issued: a word of XLATE, RDCSR or a reserved
code on the host port, a word of an internal code on the internal bus (30_encoding.md R84). -/
def inputOfWord (w : Word) : Input :=
  match busDecode w with
  | .ok _ => .bus w
  | .reject _ => .host w

/-- Whether an operation may read the backing store (20_memory.md R58). -/
def usesStore (w : Word) : Bool := decide (opOf w = 0x1#4) || decide (opOf w = 0x9#4)

/-- Present a command word, and for an operation that may read the store an answer where none is queued:
the two inputs of a step (70_reset_and_hazards.md R240; notes/assumptions/9.md). -/
def State.present (w : Word) (s : State) : State :=
  { s with
    inputs := inputOfWord w :: s.inputs
    bsReq := none
    bsAnswers := if usesStore w && s.bsAnswers.isEmpty then [.ok] else s.bsAnswers }

end Sys2Proof.Machine
end

