-- ==== Sys2Proof/Machine/AddressDecoder.lean ====
section
/-! DEFINITION. The address decoder family: DECODE (40_address_decoder.md). -/

namespace Sys2Proof.Machine

/-- DECODE (R110): the page and the offset, for every input, with no state written. -/
def execDecode (addr : Arg) (s : State) : Host.Outcome State Fault Refusal :=
  .next (s.busAnswer (.decoded (pageOf addr) (offsetOf addr)))

end Sys2Proof.Machine
end

