-- ==== Sys2Proof/Machine/PageTable.lean ====
section
/-! DEFINITION. The page table family: PTLKUP, PTMARK (42_page_table.md). -/

namespace Sys2Proof.Machine

/-- PTLKUP (R140): the valid flag and frame as an optional frame (R141). -/
def execPtlkup (page : Page) (s : State) : Host.Outcome State Fault Refusal :=
  .next (s.busAnswer (.ptEntry (s.ptLookup page)))

/-- PTMARK (R143). -/
def execPtmark (page : Page) (frame : Frame) (s : State) : Host.Outcome State Fault Refusal :=
  .next ((s.ptMark page frame).busAnswer .done)

end Sys2Proof.Machine
end

