-- ==== Sys2Proof/Machine/PhysicalMemory.lean ====
section
/-! DEFINITION. The physical memory family: SWAPIN, RDBYTE (43_physical_memory.md). -/

namespace Sys2Proof.Machine

/-- SWAPIN (R151). An error it raises makes the error entry (60_exceptions.md R207), which leaves a halted
block as it is (R208; notes/assumptions/8.md); with no answer from
the store the block waits (70_reset_and_hazards.md R244). -/
def execSwapin (page : Page) (s : State) : Host.Outcome State Fault Refusal :=
  match s.swapIn page with
  | .waiting => .next (s.awaitStore page)
  | .failed e t => .next ((t.errorEntry e).busAnswer (.raised e))
  | .loaded frame t => .next (t.busAnswer (.loaded frame))

/-- RDBYTE (R156). A frame out of range raises InvalidAddress (R157), with the error entry of
60_exceptions.md R207 (notes/assumptions/8.md); a byte never written since reset has
no value (93_implementation_defined.md U1; notes/assumptions/4.md). -/
def execRdbyte (frame : Frame) (offset : Offset) (s : State) : Host.Outcome State Fault Refusal :=
  match s.readByte frame offset with
  | .value b => .next (s.busAnswer (.byte b))
  | .outOfRange => .next ((s.errorEntry .invalidAddress).busAnswer (.raised .invalidAddress))
  | .unwritten a => .fault (.unwrittenByte a)

end Sys2Proof.Machine
end

