-- ==== Sys2Proof/Machine/TranslationCache.lean ====
section
/-! DEFINITION. The translation cache family: TLBLKUP, TLBINS (41_tlb.md). -/

namespace Sys2Proof.Machine

/-- TLBLKUP (R120): the frame of the oldest matching entry, or none; a lookup changes nothing (R121). -/
def execTlblkup (page : Page) (s : State) : Host.Outcome State Fault Refusal :=
  .next (s.busAnswer (.tlbFrame (s.tlbLookup page)))

/-- TLBINS (R123). -/
def execTlbins (page : Page) (frame : Frame) (s : State) : Host.Outcome State Fault Refusal :=
  .next ((s.tlbInsert page frame).busAnswer .done)

end Sys2Proof.Machine
end

