-- ==== Sys2Proof/Machine/Translator.lean ====
section
/-! DEFINITION. The Translator family: XLATE, RDCSR (44_translator.md). -/

namespace Sys2Proof.Machine

/-- The response of a successful XLATE (R176). -/
def okResponse (addr : Arg) (hit fault : Bool) (frame : Frame) (value : Byte) : Response where
  status := .ok
  hit := hit
  fault := fault
  addr := addr
  page := pageOf addr
  offset := offsetOf addr
  pa := physAddr frame (offsetOf addr)
  value := value
  data := 0#32

/-- The response of an XLATE that ends in an error: the decoded page and offset, the other result fields 0
(R177, 30_encoding.md R82). -/
def errorResponse (addr : Arg) (e : Error) : Response :=
  { Response.bare (.error e) addr with page := pageOf addr, offset := offsetOf addr }

/-- The error exit of XLATE (R177). -/
def State.failXlate (addr : Arg) (e : Error) (s : State) : State :=
  (s.errorEntry e).respond (errorResponse addr e)

/-- Steps 5, 6 and 7 of XLATE: the byte, then the counters and the response (R171, R178). -/
def finishXlate (addr : Arg) (hit fault : Bool) (frame : Frame) (s : State) :
    Host.Outcome State Fault Refusal :=
  match s.readByte frame (offsetOf addr) with
  | .value b => .next ((s.countXlate hit fault).respond (okResponse addr hit fault frame b))
  | .outOfRange => .next (s.failXlate addr .invalidAddress)
  | .unwritten a => .fault (.unwrittenByte a)

/-- XLATE (R170, R171): refused while HALTED, else the TLB, then the page table, then the fault service.
The frame after a page fault is the one SWAPIN returned, which the re-read of the page table yields too
(R175; stated as Obligations.ReReadGivesTheFrameOfSwapIn). -/
def execXlate (addr : Arg) (s : State) : Host.Outcome State Fault Refusal :=
  if s.halted then .next (s.respond (Response.bare .halted addr))
  else
    match s.tlbLookup (pageOf addr) with
    | some frame => finishXlate addr true false frame s
    | none =>
      match s.ptLookup (pageOf addr) with
      | some frame => finishXlate addr false false frame (s.tlbInsert (pageOf addr) frame)
      | none =>
        match s.swapIn (pageOf addr) with
        | .waiting => .next (s.awaitStore (pageOf addr))
        | .failed e t => .next (t.failXlate addr e)
        | .loaded frame t => finishXlate addr false true frame (t.tlbInsert (pageOf addr) frame)

/-- RDCSR (R180): the register's value, also while HALTED; a reserved number is an illegal command. -/
def execRdcsr (arg : Arg) (s : State) : Host.Outcome State Fault Refusal :=
  match s.csrRead (csrOf arg) with
  | some v => .next (s.respond { Response.bare .ok arg with data := v })
  | none => .next (s.answerIllegal arg)

end Sys2Proof.Machine
end

