-- ==== Sys2Proof/Machine/Dispatch.lean ====
section
/-! DEFINITION. One arm per operation (30_encoding.md R84). -/

namespace Sys2Proof.Machine

def exec (i : Instr) (s : State) : Host.Outcome State Fault Refusal :=
  match i with
  | .xlate addr => Sys2Proof.Machine.execXlate addr s
  | .rdcsr arg => Sys2Proof.Machine.execRdcsr arg s
  | .decode addr => Sys2Proof.Machine.execDecode addr s
  | .tlblkup page => Sys2Proof.Machine.execTlblkup page s
  | .tlbins page frame => Sys2Proof.Machine.execTlbins page frame s
  | .ptlkup page => Sys2Proof.Machine.execPtlkup page s
  | .ptmark page frame => Sys2Proof.Machine.execPtmark page frame s
  | .swapin page => Sys2Proof.Machine.execSwapin page s
  | .rdbyte frame offset => Sys2Proof.Machine.execRdbyte frame offset s

end Sys2Proof.Machine
end

