-- ==== Sys2Proof/Machine/Step.lean ====
section
/-! DEFINITION. One step: one command from acceptance to response (70_reset_and_hazards.md R240). -/

namespace Sys2Proof.Machine

/-- Accept the next input and run it. An idle block holds all its state (60_exceptions.md R220). -/
def step (s : State) : Host.Outcome State Fault Refusal :=
  match s.accept with
  | .idle => .next s
  | .restart rest => .next (s.restart rest)
  | .illegal arg rest => .next ((s.answerIllegal arg).retire rest)
  | .run i rest => retireOutcome rest (exec i s)
  | .notOnBus op => .refused (.notABusOperation op)

/-- `s` with the command word whose bits are `w` presented as the next input. A command is one word of 36
bits; bits above `nbits` are 0 (30_encoding.md R81; notes/assumptions/9.md). -/
def State.withFetchWord (s : State) (nbits w : Nat) : State := s.present (BitVec.ofNat 36 (w % 2 ^ nbits))

end Sys2Proof.Machine
end

