-- ==== Sys2Proof/Machine/HostSide.lean ====
section
/-! DEFINITION. What the spec gives the host: the trace, the REPORT pseudo-operation, the signed reading of a
byte and the two rates (30_encoding.md R86, R100, R102; 00_scope.md R4, R14; 44_translator.md R181). No step
uses these. -/

namespace Sys2Proof.Machine

/-- The command for one trace value, reduced modulo `2^32` (30_encoding.md R86). -/
def xlateCommand (n : Nat) : Word := encode (.xlate (BitVec.ofNat 32 n))

/-- The input for one line of the trace: none for a line that is not a number, which the host rejects and
for which it issues no command (30_encoding.md R100). Reading the text is outside (notes/assumptions/15.md). -/
def traceLine (line : Option Nat) : Option Input := line.map (fun n => .host (xlateCommand n))

/-- The commands of a trace, in file order (30_encoding.md R100, 70_reset_and_hazards.md R242). That the host
goes on with the later lines after it has rejected one is the model's choice: DESIGN CHOICE, unsafe
(notes/assumptions/20.md). -/
def traceInputs (lines : List (Option Nat)) : List Input := lines.filterMap traceLine

/-- REPORT: RDCSR STAT_TOTAL, STAT_FAULT, STAT_HIT, in that order (30_encoding.md R102). -/
def reportInputs : List Input :=
  [.host (encode (.rdcsr 1#32)), .host (encode (.rdcsr 2#32)), .host (encode (.rdcsr 3#32))]

/-- The number a data byte stands for, two's complement (00_scope.md R14). -/
def signedByte (b : Byte) : Int := if b.toNat < 128 then (b.toNat : Int) else (b.toNat : Int) - 256

/-- `pageFaultRate = faults/total` and `tlbHitRate = hits/total`, undefined for an empty run
(44_translator.md R181, 93_implementation_defined.md U16). -/
def rate (n total : Count) : Option Rat :=
  if total = 0#32 then none else some ((n.toNat : Rat) / (total.toNat : Rat))

end Sys2Proof.Machine
end

