-- ==== Sys2Proof/Machine/TlbRing.lean ====
section
/-! DEFINITION. The ring realisation of the TLB (10_state.md R26, 41_tlb.md R125). It is informative and is
no part of State: the sequence `tlb` is normative. The claim that the two agree is an obligation. -/

namespace Sys2Proof.Machine

/-- Sixteen slots, `head[3:0]` the slot of the oldest entry, `count[4:0]` the number of live slots. Slots
outside the live window hold anything (93_implementation_defined.md U3). -/
structure TlbRing where
  slots : Vector TlbEntry 16
  head : BitVec 4
  count : BitVec 5
deriving DecidableEq, Repr

/-- The slot of position `i` of the sequence, `(head + i) mod 16`. -/
def ringSlot (r : TlbRing) (i : Nat) : Fin 16 := Fin.ofNat 16 (r.head.toNat + i)

/-- The sequence a ring stands for, `TLB[i] = slot[(head + i) mod 16]` for `i < count` (R26). -/
def ringToList (r : TlbRing) : List TlbEntry :=
  (List.range r.count.toNat).map (fun i => r.slots[ringSlot r i])

/-- TLBINS on the ring (R125). -/
def ringInsert (e : TlbEntry) (r : TlbRing) : TlbRing :=
  if r.count = 16#5 then
    { r with slots := r.slots.set (ringSlot r 0) e, head := r.head + 1#4 }
  else
    { r with slots := r.slots.set (ringSlot r r.count.toNat) e, count := r.count + 1#5 }

/-- TLBLKUP on the ring: only live slots are compared, oldest first (R120, R122). -/
def ringLookup (r : TlbRing) (page : Page) : Option Frame :=
  ((List.range r.count.toNat).find? (fun i => r.slots[ringSlot r i].page == page)).map
    (fun i => r.slots[ringSlot r i].frame)

/-- A ring after reset: `head = 0`, `count = 0`, any slots (10_state.md R47). -/
def ringReset (slots : Vector TlbEntry 16) : TlbRing := { slots := slots, head := 0#4, count := 0#5 }

end Sys2Proof.Machine
end

