-- ==== Sys2Proof/Safety.lean ====
section
/-! DEFINITION. What a state reachable from reset looks like (10_state.md R27, R29, R32, R34, R48), and a
step that ends without a fault or a refusal. -/

namespace Sys2Proof.Machine

/-- The TLB (10_state.md R27 (a), (b), (c)). -/
structure TlbInv (s : State) : Prop where
  length_le : s.tlb.length ≤ s.config.tlbCap
  pages_distinct : (s.tlb.map (fun e => e.page)).Nodup
  agrees : ∀ e ∈ s.tlb, s.ptLookup e.page = some e.frame

/-- The page table (10_state.md R29 (d), (e)). -/
structure PtInv (s : State) : Prop where
  frame_lt : ∀ p f, s.ptLookup p = some f → f.toNat < s.nextFrame.toNat
  frame_inj : ∀ p q f, s.ptLookup p = some f → s.ptLookup q = some f → p = q
  valid_count : s.pt.toList.countP (fun entry => entry.isSome) = s.nextFrame.toNat

/-- Physical memory: canonical, only allocated frames hold bytes, `next_frame` in range, and every loaded
page reads as the store has it (10_state.md R30, R31, R32). -/
structure PmInv (s : State) : Prop where
  wf : memoryWf s.pm = true
  in_allocated : ∀ c ∈ s.pm, c.1 < s.nextFrame.toNat * Config.frameSize
  next_le : s.nextFrame.toNat ≤ s.config.numFrames
  loaded : ∀ p f, s.ptLookup p = some f → ∀ k : Offset, s.pmByte f k = some (s.storeByte (storeAddr p k))

/-- The counters (10_state.md R34), and the TLB's occupancy as the number of TLBINS since reset
(R27 (d), 44_translator.md R173). A counter at `2^32 - 1` may have saturated. -/
structure CountInv (s : State) : Prop where
  hit_le : s.hitCount ≤ s.totalCount
  fault_le : s.faultCount ≤ s.totalCount
  sum_le : s.totalCount.toNat < countMax →
    s.hitCount.toNat + s.faultCount.toNat ≤ s.totalCount.toNat
  fault_eq : s.faultCount.toNat = s.nextFrame.toNat
  occupancy : s.totalCount.toNat < countMax →
    s.tlb.length = min s.config.tlbCap (s.totalCount.toNat - s.hitCount.toNat)

/-- HALTED and CAUSE (10_state.md R48). -/
structure HaltInv (s : State) : Prop where
  running : s.halted = false → s.cause = 0#3
  stopped : s.halted = true → ∃ e, s.cause = causeCode e

/-- Only the host drives the block: no micro-operation is issued but by XLATE (30_encoding.md R87). -/
def HostDriven (s : State) : Prop := ∀ w, Input.bus w ∉ s.inputs

/-- The well-formedness predicate of 10_state.md R48. -/
structure Inv (s : State) : Prop where
  tlb : TlbInv s
  pt : PtInv s
  pm : PmInv s
  counts : CountInv s
  halt : HaltInv s
  host : HostDriven s

/-- A step that ends in a next state: neither a fault nor a refusal of the model. -/
def StepSafe (s : State) : Prop := ∃ t, step s = .next t

/-- `n` steps, one after another (70_reset_and_hazards.md R241). -/
def runSteps : Nat → State → Host.Outcome State Fault Refusal
  | 0, s => .next s
  | n + 1, s =>
    match step s with
    | .next t => runSteps n t
    | .fault r => .fault r
    | .refused r => .refused r

/-- TLBINS of each entry in turn (41_tlb.md R124, R126). -/
def runTlbins : List TlbEntry → State → Host.Outcome State Fault Refusal
  | [], s => .next s
  | e :: rest, s =>
    match exec (.tlbins e.page e.frame) s with
    | .next t => runTlbins rest t
    | .fault r => .fault r
    | .refused r => .refused r

/-- A state with the echo of the operand on the response port set to 0, to compare two commands whose
operands differ in ignored bits (30_encoding.md R82, R89). -/
def State.eraseEcho (s : State) : State := { s with rsp := s.rsp.map (fun r => { r with addr := 0#32 }) }

/-- An outcome without the echo of the operand. -/
def eraseEcho (o : Host.Outcome State Fault Refusal) : Host.Outcome State Fault Refusal :=
  match o with
  | .next t => .next t.eraseEcho
  | .fault r => .fault r
  | .refused r => .refused r

/-- A command word the host port does not accept: an operation code other than XLATE and RDCSR, or RDCSR of
a register from 7 to 15 (30_encoding.md R87). -/
def IllegalWord (w : Word) : Prop := (opOf w ≠ 1#4 ∧ opOf w ≠ 2#4) ∨ (opOf w = 2#4 ∧ 7 ≤ w.toNat % 16)

/-- The next input is not a reset, nor a reset that ends a wait for the store. -/
def NoReset (s : State) : Prop := ∀ rest, s.accept ≠ .restart rest

end Sys2Proof.Machine
end

