-- ==== Sys2Proof/Certificates/Slice0/Obligations.lean ====
section
/-! DEFINITION. The statements for the provers. Each docstring names the rule of spec/ it formalises. -/

open Sys2Proof Sys2Proof.Machine

/-! ### Encoding -/

/-- Decoding the encoding of a well-formed operation gives the operation back, on the port that issues it
(30_encoding.md section 2). -/
def Obligations.DecodeEncodeRoundTrip : Prop :=
  ∀ i : Instr, i.wellFormed = true →
    decode (encode i) = .ok i ∧
    (i.hostIssuable = true → hostDecode (encode i) = .ok i) ∧
    (i.hostIssuable = false → busDecode (encode i) = .ok i)

/-- Every word, by its operation code and operand fields read as numbers (30_encoding.md sections 1 to 3); that the decoder itself rejects RDCSR 7 to 15 is
inferred (notes/assumptions/17.md). -/
def Obligations.OperandLayouts : Prop :=
  ∀ w : Word,
    let op := w.toNat / 4294967296
    let arg := w.toNat % 4294967296
    let high : BitVec 8 := BitVec.ofNat 8 (arg / 256 % 256)
    let low : BitVec 8 := BitVec.ofNat 8 (arg % 256)
    (op = 1 → decode w = .ok (.xlate (BitVec.ofNat 32 arg))) ∧
    (op = 2 → arg % 16 ≤ 6 → decode w = .ok (.rdcsr (BitVec.ofNat 32 arg))) ∧
    (csrOf (BitVec.ofNat 32 arg) = BitVec.ofNat 4 (arg % 16)) ∧
    (op = 2 → 7 ≤ arg % 16 → decode w = .reject (.reservedCsr (BitVec.ofNat 4 (arg % 16)))) ∧
    (op = 4 → decode w = .ok (.decode (BitVec.ofNat 32 arg))) ∧
    (op = 5 → decode w = .ok (.tlblkup low)) ∧
    (op = 6 → decode w = .ok (.tlbins high low)) ∧
    (op = 7 → decode w = .ok (.ptlkup low)) ∧
    (op = 8 → decode w = .ok (.ptmark high low)) ∧
    (op = 9 → decode w = .ok (.swapin low)) ∧
    (op = 10 → decode w = .ok (.rdbyte high low)) ∧
    (op = 0 ∨ op = 3 ∨ 11 ≤ op → decode w = .reject (.reservedOp (BitVec.ofNat 4 op)))

/-- The host port takes exactly XLATE and RDCSR of a defined register (30_encoding.md section 3). -/
def Obligations.HostPortClassifiesEveryWord : Prop :=
  ∀ w : Word,
    (opOf w = 1#4 → hostDecode w = .ok (.xlate (argOf w))) ∧
    (opOf w = 2#4 → w.toNat % 16 ≤ 6 → hostDecode w = .ok (.rdcsr (argOf w))) ∧
    (IllegalWord w → ∃ r, hostDecode w = .reject r) ∧
    (IllegalWord w ∨ opOf w = 1#4 ∨ (opOf w = 2#4 ∧ w.toNat % 16 ≤ 6))

/-- Operand bits that a layout does not name have no effect but on the echo, and the Translator drives them
as 0 (30_encoding.md R89). -/
def Obligations.UnusedOperandBitsAreIgnored : Prop :=
  (∀ (a b : Arg) (s : State), a.setWidth 16 = b.setWidth 16 →
    eraseEcho (exec (.xlate a) s) = eraseEcho (exec (.xlate b) s) ∧
    exec (.decode a) s = exec (.decode b) s) ∧
  (∀ (a b : Arg) (s : State), a.setWidth 4 = b.setWidth 4 →
    eraseEcho (exec (.rdcsr a) s) = eraseEcho (exec (.rdcsr b) s)) ∧
  (∀ v w : Word, opOf v = opOf w → opOf w = 5#4 ∨ opOf w = 7#4 ∨ opOf w = 9#4 →
    v.setWidth 8 = w.setWidth 8 → decode v = decode w) ∧
  (∀ v w : Word, opOf v = opOf w → opOf w = 6#4 ∨ opOf w = 8#4 ∨ opOf w = 10#4 →
    v.setWidth 16 = w.setWidth 16 → decode v = decode w) ∧
  (∀ p f : BitVec 8,
    (encode (.tlblkup p)).toNat = 5 * 4294967296 + p.toNat ∧
    (encode (.tlbins p f)).toNat = 6 * 4294967296 + p.toNat * 256 + f.toNat ∧
    (encode (.ptlkup p)).toNat = 7 * 4294967296 + p.toNat ∧
    (encode (.ptmark p f)).toNat = 8 * 4294967296 + p.toNat * 256 + f.toNat ∧
    (encode (.swapin p)).toNat = 9 * 4294967296 + p.toNat ∧
    (encode (.rdbyte p f)).toNat = 10 * 4294967296 + p.toNat * 256 + f.toNat)

/-- Words written out from 30_encoding.md R85 and 95_test_vectors.md section 3.1. -/
def Obligations.SampleWordsDecode : Prop :=
  decode 0x112345678#36 = .ok (.xlate 0x12345678#32) ∧
  decode 0x200000003#36 = .ok (.rdcsr 3#32) ∧
  decode 0x20000000F#36 = .reject (.reservedCsr 15#4) ∧
  decode 0x400001234#36 = .ok (.decode 0x1234#32) ∧
  decode 0x500000001#36 = .ok (.tlblkup 1#8) ∧
  decode 0x600000102#36 = .ok (.tlbins 1#8 2#8) ∧
  decode 0x7000000FF#36 = .ok (.ptlkup 255#8) ∧
  decode 0x80000FF03#36 = .ok (.ptmark 255#8 3#8) ∧
  decode 0x900000005#36 = .ok (.swapin 5#8) ∧
  decode 0xA000001FF#36 = .ok (.rdbyte 1#8 255#8) ∧
  decode 0x000000000#36 = .reject (.reservedOp 0#4)

/-! ### Reset and the inputs -/

/-- The state after reset (10_state.md R47). -/
def Obligations.ResetValues : Prop :=
  State.reset.tlb = [] ∧
  (∀ p : Page, State.reset.ptLookup p = none) ∧
  (∀ a : Nat, readCell State.reset.pm a = none) ∧
  State.reset.nextFrame = 0#9 ∧
  State.reset.totalCount = 0#32 ∧ State.reset.faultCount = 0#32 ∧ State.reset.hitCount = 0#32 ∧
  State.reset.halted = false ∧ State.reset.cause = 0#3 ∧
  State.reset.csrConfig = 0x00010010#32 ∧
  (∀ slots, (ringReset slots).head = 0#4 ∧ (ringReset slots).count = 0#5 ∧
    ringToList (ringReset slots) = [])

/-- The reset input brings every element to its reset value, from every state; that the configuration and
the environment stay as they are is the model's choice (notes/assumptions/11.md). -/
def Obligations.ResetInputRestarts : Prop :=
  ∀ (s : State) (rest : List Input), s.inputs = .rst :: rest →
    ∃ t, step s = .next t ∧
      t.tlb = [] ∧ (∀ p : Page, t.ptLookup p = none) ∧ (∀ a : Nat, readCell t.pm a = none) ∧
      t.nextFrame = 0#9 ∧ t.totalCount = 0#32 ∧ t.faultCount = 0#32 ∧ t.hitCount = 0#32 ∧
      t.halted = false ∧ t.cause = 0#3 ∧ t.rsp = none ∧ t.bus = none ∧ t.bsReq = none ∧
      t.config = s.config ∧ t.bs = s.bs ∧ t.bsAnswers = s.bsAnswers ∧ t.inputs = rest

/-- A reset while a command waits for the store abandons the command without a response, and is the reset
just before that command (70_reset_and_hazards.md R231; the queue of inputs is the model's choice,
notes/assumptions/11.md). -/
def Obligations.ResetAbandonsWaitingCommand : Prop :=
  ∀ (s : State) (w : Word) (c : Input) (rest : List Input),
    c = .host w ∨ c = .bus w → s.inputs = c :: .rst :: rest → s.bsReq ≠ none → s.bsAnswers = [] →
    step s = step { s with inputs := .rst :: rest } ∧
    ∃ t, step s = .next t ∧ t.inputs = rest ∧ t.bsReq = none ∧ t.rsp = none

/-- Where the next input is a word that decodes, a step is `exec` of the operation, after which the word is
taken from the inputs unless the block is left waiting for the store; no operation is refused by the model.
That a bus word is a step of its own and that words wait in a list is the model's choice
(notes/assumptions/8.md, 1.md). -/
def Obligations.StepRunsDecodedInstruction : Prop :=
  ∀ (s : State) (w : Word) (i : Instr) (rest : List Input), s.abandoned rest = false →
    (s.inputs = .host w :: rest ∧ hostDecode w = .ok i) ∨
      (s.inputs = .bus w :: rest ∧ busDecode w = .ok i) →
    (∀ t, exec i s = .next t → t.bsReq = none → step s = .next { t with inputs := rest }) ∧
    (∀ t, exec i s = .next t → t.bsReq ≠ none → step s = .next t) ∧
    (∀ r, exec i s = .fault r → step s = .fault r) ∧
    (∀ r, exec i s ≠ .refused r)

/-- With nothing presented the block is idle and holds all its state (60_exceptions.md section 5; that this
is a step is the model's choice, notes/assumptions/10.md). -/
def Obligations.IdleBlockHoldsItsState : Prop :=
  ∀ s : State, s.inputs = [] → step s = .next s

/-- A word the host port does not accept is answered IllegalCommand, whether or not the block is HALTED,
and changes nothing (30_encoding.md R87, 60_exceptions.md R205). -/
def Obligations.IllegalWordsAreAnsweredIllegalCommand : Prop :=
  ∀ (s : State) (w : Word) (rest : List Input), s.inputs = .host w :: rest → s.bsReq = none →
    IllegalWord w →
    step s = .next { s with
      rsp := some { status := .illegalCommand, hit := false, fault := false, addr := argOf w, page := 0#8,
                    offset := 0#8, pa := 0#16, value := 0#8, data := 0#32 }
      inputs := rest } ∧
    statusCode .illegalCommand = 4#4

/-- A word that is no micro-operation has no meaning on the internal bus (the model's refusal,
notes/assumptions/14.md). -/
def Obligations.BusRefusesOtherWords : Prop :=
  ∀ (s : State) (w : Word) (rest : List Input), s.inputs = .bus w :: rest → s.bsReq = none →
    opOf w = 1#4 ∨ opOf w = 2#4 ∨ opOf w = 0#4 ∨ opOf w = 3#4 ∨ 11#4 ≤ opOf w →
    step s = .refused (.notABusOperation (opOf w))

/-- An XLATE that needs the store, with no answer: the block requests the page, accepts nothing and changes
nothing, for any number of steps, and a reset ends the wait (70_reset_and_hazards.md section 3). That the wait
is a step repeated on an empty queue of answers, and what the reset keeps and takes, is the model's choice
(notes/assumptions/2.md, 11.md). -/
def Obligations.BlockWaitsForTheStore : Prop :=
  ∀ (s : State) (w : Word) (addr : Arg) (rest : List Input) (n : Nat),
    s.inputs = .host w :: rest → hostDecode w = .ok (.xlate addr) →
    s.halted = false → s.tlbLookup (pageOf addr) = none → s.ptLookup (pageOf addr) = none →
    s.bsAnswers = [] →
    (rest.head? ≠ some .rst → runSteps (n + 1) s = .next { s with bsReq := some (pageOf addr) }) ∧
    (∀ later, rest = .rst :: later → s.bsReq = none →
      step s = .next { s with bsReq := some (pageOf addr) } ∧
      runSteps 2 s = .next { State.reset with
        config := s.config, bs := s.bs, bsAnswers := [], inputs := later })

/-! ### DECODE -/

/-- DECODE splits an address, whatever the state, and writes no state (40_address_decoder.md R110). -/
def Obligations.DecodeSplitsAddress : Prop :=
  ∀ (s : State) (addr : Arg),
    exec (.decode addr) s = .next { s with
      bus := some (.decoded (((addr >>> 8) &&& 0xFF#32).setWidth 8) ((addr &&& 0xFF#32).setWidth 8))
      bsReq := none } ∧
    pageOf addr = ((addr >>> 8) &&& 0xFF#32).setWidth 8 ∧
    offsetOf addr = (addr &&& 0xFF#32).setWidth 8 ∧
    opOf (encode (.decode addr)) = 4#4 ∧ argOf (encode (.decode addr)) = addr

/-- The decoder is a bijection between 16-bit addresses and pairs of page and offset
(40_address_decoder.md section DECODE). -/
def Obligations.DecodeIsInvertible : Prop :=
  (∀ (p : Page) (o : Offset) (addr : Arg), addr.toNat % 65536 = p.toNat * 256 + o.toNat →
    pageOf addr = p ∧ offsetOf addr = o) ∧
  (∀ addr : Arg, (pageOf addr).toNat * 256 + (offsetOf addr).toNat = addr.toNat % 65536)

/-! ### The translation cache -/

/-- TLBLKUP answers the frame of the oldest matching entry, or none, and changes nothing
(41_tlb.md R120, R121). -/
def Obligations.TlbLookupFindsOldestMatch : Prop :=
  ∀ (s : State) (page : Page), ∃ answer : Option Frame,
    exec (.tlblkup page) s = .next { s with bus := some (.tlbFrame answer), bsReq := none } ∧
    (∀ f, answer = some f ↔ ∃ (i : Nat) (h : i < s.tlb.length), s.tlb[i].page = page ∧ s.tlb[i].frame = f ∧
      ∀ (j : Nat) (hj : j < i), s.tlb[j].page ≠ page) ∧
    (answer = none ↔ ∀ e ∈ s.tlb, e.page ≠ page) ∧
    opOf (encode (.tlblkup page)) = 5#4 ∧ argOf (encode (.tlblkup page)) = page.setWidth 32

/-- TLBINS appends the entry as the newest, evicting the oldest when the TLB is full, with no search for the
page (41_tlb.md R123). -/
def Obligations.TlbInsertAppendsEvictingOldest : Prop :=
  ∀ (s : State) (page : Page) (frame : Frame),
    (s.tlb.length = s.config.tlbCap →
      exec (.tlbins page frame) s = .next { s with
        tlb := s.tlb.tail ++ [{ page := page, frame := frame }], bus := some .done, bsReq := none }) ∧
    (s.tlb.length ≠ s.config.tlbCap →
      exec (.tlbins page frame) s = .next { s with
        tlb := s.tlb ++ [{ page := page, frame := frame }], bus := some .done, bsReq := none }) ∧
    opOf (encode (.tlbins page frame)) = 6#4 ∧
    (argOf (encode (.tlbins page frame))).toNat = page.toNat * 256 + frame.toNat

/-- After any number of insertions the TLB holds the last TLB_CAP entries in their order; and no operation
changes the TLB but by one such insertion (41_tlb.md section TLBINS). -/
def Obligations.TlbHoldsTheNewestEntries : Prop :=
  (∀ (s : State) (es : List TlbEntry), s.tlb.length ≤ s.config.tlbCap →
    ∃ t, runTlbins es s = .next t ∧
      t.tlb = (s.tlb ++ es).drop (s.tlb.length + es.length - s.config.tlbCap)) ∧
  (∀ (i : Instr) (s t : State), exec i s = .next t →
    t.tlb = s.tlb ∨ ∃ e, (s.tlb.length = s.config.tlbCap ∧ t.tlb = s.tlb.tail ++ [e]) ∨
      (s.tlb.length ≠ s.config.tlbCap ∧ t.tlb = s.tlb ++ [e]))

/-- Inserting capacity + 1 distinct pages into an empty TLB leaves exactly capacity entries, the first page
absent and the rest present in order (41_tlb.md section TLBINS, 95_test_vectors.md E3). -/
def Obligations.TlbFifoLaw : Prop :=
  ∀ (s : State) (e : TlbEntry) (es : List TlbEntry), s.tlb = [] → es.length = s.config.tlbCap →
    ((e :: es).map (fun d => d.page)).Nodup →
    ∃ t, runTlbins (e :: es) s = .next t ∧ t.tlb = es ∧ t.tlb.length = s.config.tlbCap ∧
      t.tlbLookup e.page = none ∧ ∀ d ∈ es, t.tlbLookup d.page = some d.frame

/-- The ring realisation inserts as the rule says and behaves as the sequence (41_tlb.md R125). -/
def Obligations.RingRefinesSequence : Prop :=
  (∀ (r : TlbRing) (e : TlbEntry), r.count.toNat ≤ 16 →
    (r.count.toNat = 16 →
      ringInsert e r = { r with slots := r.slots.set r.head.toNat e r.head.isLt, head := r.head + 1#4 }) ∧
    (r.count.toNat < 16 →
      ringInsert e r = { r with
        slots := r.slots.set ((r.head.toNat + r.count.toNat) % 16) e (Nat.mod_lt _ (by decide))
        count := r.count + 1#5 }) ∧
    (ringInsert e r).count.toNat ≤ 16 ∧
    ringToList (ringInsert e r) = tlbAppend 16 (ringToList r) e ∧
    ∀ page, ringLookup r page = tlbFind (ringToList r) page) ∧
  ∀ slots, ringToList (ringReset slots) = []

/-! ### The page table -/

/-- PTLKUP answers the entry, as an optional frame, and changes nothing (42_page_table.md R140, R141). -/
def Obligations.PageTableLookup : Prop :=
  (∀ (s : State) (page : Page),
    exec (.ptlkup page) s = .next { s with
      bus := some (.ptEntry (s.pt[page.toNat]'page.isLt)), bsReq := none } ∧
    opOf (encode (.ptlkup page)) = 7#4 ∧ argOf (encode (.ptlkup page)) = page.setWidth 32) ∧
  ∀ page : Page, State.reset.ptLookup page = none

/-- PTMARK makes one entry valid with the frame and changes no other (42_page_table.md R143). -/
def Obligations.PageTableMark : Prop :=
  ∀ (s : State) (page : Page) (frame : Frame), ∃ t,
    exec (.ptmark page frame) s = .next t ∧
    (∀ q : Page, t.ptLookup q = if q = page then some frame else s.ptLookup q) ∧
    t = { s with pt := t.pt, bus := some .done, bsReq := none } ∧
    opOf (encode (.ptmark page frame)) = 8#4 ∧
    (argOf (encode (.ptmark page frame))).toNat = page.toNat * 256 + frame.toNat

/-! ### Physical memory and the fault service -/

/-- SWAPIN, once the store has answered: the read comes first and the capacity check second; a success fills
the next frame, advances the counter and marks the page; a failure writes nothing but the error entry, and
not even that on a halted block (43_physical_memory.md section SWAPIN, 60_exceptions.md section 2). That a
failure has consumed the answer is inferred (notes/assumptions/19.md), and that SWAPIN runs on its own is the
model's choice (notes/assumptions/8.md). -/
def Obligations.SwapInServicesThePageFault : Prop :=
  ∀ (s : State) (page : Page) (rest : List BsAnswer),
    (s.bsAnswers = .err :: rest →
      exec (.swapin page) s = .next { s with
        halted := true, cause := if s.halted then s.cause else 1#3, bus := some (.raised .ioError),
        bsReq := none, bsAnswers := rest }) ∧
    (s.bsAnswers = .ok :: rest → s.config.numFrames ≤ s.nextFrame.toNat →
      exec (.swapin page) s = .next { s with
        halted := true, cause := if s.halted then s.cause else 2#3, bus := some (.raised .capacityExhausted),
        bsReq := none, bsAnswers := rest }) ∧
    (s.bsAnswers = .ok :: rest → s.nextFrame.toNat < s.config.numFrames →
      ∃ t, exec (.swapin page) s = .next t ∧
        t = { s with
          pm := t.pm, pt := t.pt, nextFrame := t.nextFrame,
          bus := some (.loaded (s.nextFrame.setWidth 8)), bsReq := none, bsAnswers := rest } ∧
        t.nextFrame.toNat = s.nextFrame.toNat + 1 ∧
        (∀ q : Page, t.ptLookup q = if q = page then some (s.nextFrame.setWidth 8) else s.ptLookup q) ∧
        (∀ k : Offset, readCell t.pm (s.nextFrame.toNat * 256 + k.toNat) =
          some (s.storeByte (BitVec.ofNat 16 (page.toNat * 256 + k.toNat)))) ∧
        (∀ a : Nat, a < s.nextFrame.toNat * 256 ∨ s.nextFrame.toNat * 256 + 256 ≤ a →
          readCell t.pm a = readCell s.pm a)) ∧
    opOf (encode (.swapin page)) = 9#4 ∧ argOf (encode (.swapin page)) = page.setWidth 32

/-- SWAPIN with no answer from the store requests the page and changes nothing (43_physical_memory.md
section SWAPIN; the queue of answers is the model's choice, notes/assumptions/2.md). -/
def Obligations.SwapInWaitsForTheStore : Prop :=
  ∀ (s : State) (page : Page), s.bsAnswers = [] →
    exec (.swapin page) s = .next { s with bsReq := some page }

/-- RDBYTE answers the byte at `frame * 256 + offset` and changes nothing; a frame out of range raises
InvalidAddress and reads nothing (43_physical_memory.md section RDBYTE), with the error entry, or none on a
halted block (60_exceptions.md section 2). That RDBYTE runs on its own, and so makes the entry itself, is the
model's choice (notes/assumptions/8.md). -/
def Obligations.ReadByteReadsOrRaises : Prop :=
  ∀ (s : State) (frame : Frame) (offset : Offset),
    (∀ b : Byte, frame.toNat < s.config.numFrames →
      readCell s.pm (frame.toNat * 256 + offset.toNat) = some b →
      exec (.rdbyte frame offset) s = .next { s with bus := some (.byte b), bsReq := none }) ∧
    (s.config.numFrames ≤ frame.toNat →
      exec (.rdbyte frame offset) s = .next { s with
        halted := true, cause := if s.halted then s.cause else 3#3, bus := some (.raised .invalidAddress),
        bsReq := none }) ∧
    opOf (encode (.rdbyte frame offset)) = 10#4 ∧
    (argOf (encode (.rdbyte frame offset))).toNat = frame.toNat * 256 + offset.toNat

/-- RDBYTE of a byte never written since reset is the model's fault (93_implementation_defined.md U1;
notes/assumptions/4.md). -/
def Obligations.ReadOfUnwrittenByteFaults : Prop :=
  ∀ (s : State) (frame : Frame) (offset : Offset), frame.toNat < s.config.numFrames →
    readCell s.pm (frame.toNat * 256 + offset.toNat) = none →
    exec (.rdbyte frame offset) s = .fault (.unwrittenByte (BitVec.ofNat 16 (frame.toNat * 256 + offset.toNat)))

/-! ### XLATE -/

/-- XLATE that hits in the TLB: the counters and the response, nothing else (44_translator.md section
XLATE). -/
def Obligations.XlateOnTlbHit : Prop :=
  ∀ (s : State) (addr : Arg) (f : Frame) (b : Byte), s.halted = false →
    s.tlbLookup (pageOf addr) = some f → f.toNat < s.config.numFrames →
    readCell s.pm (f.toNat * 256 + (offsetOf addr).toNat) = some b →
    exec (.xlate addr) s = .next { s with
      totalCount := satAdd s.totalCount true
      hitCount := satAdd s.hitCount true
      rsp := some { status := .ok, hit := true, fault := false, addr := addr, page := pageOf addr,
                    offset := offsetOf addr, pa := physAddr f (offsetOf addr), value := b, data := 0#32 }
      bsReq := none }

/-- XLATE that misses the TLB and finds a valid page-table entry: the TLB, the counters and the response
(44_translator.md section XLATE). -/
def Obligations.XlateOnPageTableHit : Prop :=
  ∀ (s : State) (addr : Arg) (f : Frame) (b : Byte), s.halted = false →
    s.tlbLookup (pageOf addr) = none → s.ptLookup (pageOf addr) = some f → f.toNat < s.config.numFrames →
    readCell s.pm (f.toNat * 256 + (offsetOf addr).toNat) = some b →
    exec (.xlate addr) s = .next { s with
      tlb := tlbAppend s.config.tlbCap s.tlb { page := pageOf addr, frame := f }
      totalCount := satAdd s.totalCount true
      rsp := some { status := .ok, hit := false, fault := false, addr := addr, page := pageOf addr,
                    offset := offsetOf addr, pa := physAddr f (offsetOf addr), value := b, data := 0#32 }
      bsReq := none }

/-- XLATE that takes a page fault the store answers: the page is loaded into the next free frame, and the
same command delivers the byte (44_translator.md section XLATE). -/
def Obligations.XlateOnPageFault : Prop :=
  ∀ (s : State) (addr : Arg) (rest : List BsAnswer), s.halted = false →
    s.tlbLookup (pageOf addr) = none → s.ptLookup (pageOf addr) = none → s.bsAnswers = .ok :: rest →
    s.nextFrame.toNat < s.config.numFrames →
    ∃ t, exec (.xlate addr) s = .next t ∧
      t = { s with
        tlb := tlbAppend s.config.tlbCap s.tlb { page := pageOf addr, frame := s.nextFrame.setWidth 8 }
        pt := t.pt, pm := t.pm, nextFrame := t.nextFrame
        totalCount := satAdd s.totalCount true
        faultCount := satAdd s.faultCount true
        rsp := some { status := .ok, hit := false, fault := true, addr := addr, page := pageOf addr,
                      offset := offsetOf addr, pa := physAddr (s.nextFrame.setWidth 8) (offsetOf addr),
                      value := s.storeByte (storeAddr (pageOf addr) (offsetOf addr)), data := 0#32 }
        bsReq := none, bsAnswers := rest } ∧
      t.nextFrame.toNat = s.nextFrame.toNat + 1 ∧
      (∀ q : Page, t.ptLookup q =
        if q = pageOf addr then some (s.nextFrame.setWidth 8) else s.ptLookup q) ∧
      (∀ k : Offset, readCell t.pm (s.nextFrame.toNat * 256 + k.toNat) =
        some (s.storeByte (BitVec.ofNat 16 ((pageOf addr).toNat * 256 + k.toNat)))) ∧
      (∀ a : Nat, a < s.nextFrame.toNat * 256 ∨ s.nextFrame.toNat * 256 + 256 ≤ a →
        readCell t.pm a = readCell s.pm a)

/-- XLATE while HALTED is refused and touches nothing (44_translator.md R170, 60_exceptions.md R206). -/
def Obligations.XlateWhileHaltedIsRefused : Prop :=
  (∀ (s : State) (addr : Arg), s.halted = true →
    exec (.xlate addr) s = .next { s with
      rsp := some { status := .halted, hit := false, fault := false, addr := addr, page := 0#8,
                    offset := 0#8, pa := 0#16, value := 0#8, data := 0#32 }
      bsReq := none }) ∧
  (∀ (s : State) (arg : Arg), ∃ t r, exec (.rdcsr arg) s = .next t ∧ t.rsp = some r ∧ r.status ≠ .halted) ∧
  statusCode .halted = 5#4

/-- The error exits of XLATE: IoError and CapacityExhausted leave everything but HALTED and CAUSE as it was
before the command, and InvalidAddress leaves the writes of step 4 (44_translator.md section XLATE); that the
command has consumed the store's answer is inferred (notes/assumptions/19.md). -/
def Obligations.XlateErrorExits : Prop :=
  ∀ (s : State) (addr : Arg), s.halted = false →
    let failed (e : Error) : Response :=
      { status := .error e, hit := false, fault := false, addr := addr, page := pageOf addr,
        offset := offsetOf addr, pa := 0#16, value := 0#8, data := 0#32 }
    (∀ rest, s.tlbLookup (pageOf addr) = none → s.ptLookup (pageOf addr) = none →
      s.bsAnswers = .err :: rest →
      exec (.xlate addr) s = .next { s with
        halted := true, cause := 1#3, rsp := some (failed .ioError), bsReq := none, bsAnswers := rest }) ∧
    (∀ rest, s.tlbLookup (pageOf addr) = none → s.ptLookup (pageOf addr) = none →
      s.bsAnswers = .ok :: rest → s.config.numFrames ≤ s.nextFrame.toNat →
      exec (.xlate addr) s = .next { s with
        halted := true, cause := 2#3, rsp := some (failed .capacityExhausted), bsReq := none,
        bsAnswers := rest }) ∧
    (∀ f, s.tlbLookup (pageOf addr) = some f → s.config.numFrames ≤ f.toNat →
      exec (.xlate addr) s = .next { s with
        halted := true, cause := 3#3, rsp := some (failed .invalidAddress), bsReq := none }) ∧
    (∀ f, s.tlbLookup (pageOf addr) = none → s.ptLookup (pageOf addr) = some f →
      s.config.numFrames ≤ f.toNat →
      exec (.xlate addr) s = .next { s with
        tlb := tlbAppend s.config.tlbCap s.tlb { page := pageOf addr, frame := f }
        halted := true, cause := 3#3, rsp := some (failed .invalidAddress), bsReq := none })

/-- The response of every successful XLATE (44_translator.md R176). -/
def Obligations.XlateResponseFields : Prop :=
  ∀ (s t : State) (addr : Arg) (r : Response), exec (.xlate addr) s = .next t → t.bsReq = none →
    t.rsp = some r → r.status = .ok →
    statusCode r.status = 0#4 ∧ r.addr = addr ∧ r.data = 0#32 ∧
    r.page.toNat = addr.toNat / 256 % 256 ∧ r.offset.toNat = addr.toNat % 256 ∧
    (∃ f : Frame, (r.hit = true → s.tlbLookup r.page = some f) ∧
      (r.hit = false → t.ptLookup r.page = some f) ∧ r.pa.toNat = f.toNat * 256 + r.offset.toNat) ∧
    readCell t.pm r.pa.toNat = some r.value ∧
    (r.hit = true ↔ s.tlbLookup r.page ≠ none) ∧
    (r.fault = true ↔ s.tlbLookup r.page = none ∧ s.ptLookup r.page = none)

/-- The three successful leaves, told apart by the two events; the page table is consulted after the TLB has
missed, the store after the page table has answered invalid (44_translator.md section XLATE). -/
def Obligations.XlateHasThreeSuccessfulLeaves : Prop :=
  ∀ (s t : State) (addr : Arg) (r : Response), exec (.xlate addr) s = .next t → t.bsReq = none →
    t.rsp = some r → r.status = .ok →
    (r.hit = true ∧ r.fault = false ∧ s.tlbLookup (pageOf addr) ≠ none ∧ t.tlb = s.tlb ∧ t.pt = s.pt ∧ t.pm = s.pm ∧
      t.nextFrame = s.nextFrame ∧ t.bsAnswers = s.bsAnswers) ∨
    (r.hit = false ∧ r.fault = false ∧ s.tlbLookup (pageOf addr) = none ∧ t.pt = s.pt ∧ t.pm = s.pm ∧
      t.nextFrame = s.nextFrame ∧ t.bsAnswers = s.bsAnswers ∧ ∃ f, s.ptLookup (pageOf addr) = some f ∧
        t.tlb = tlbAppend s.config.tlbCap s.tlb { page := pageOf addr, frame := f }) ∨
    (r.hit = false ∧ r.fault = true ∧ s.tlbLookup (pageOf addr) = none ∧ s.ptLookup (pageOf addr) = none ∧
      s.bsAnswers = .ok :: t.bsAnswers ∧ ∃ f, t.ptLookup (pageOf addr) = some f ∧
        t.tlb = tlbAppend s.config.tlbCap s.tlb { page := pageOf addr, frame := f })

/-- The counters change at the end of an XLATE answered OK, together and saturating, and nowhere else
(44_translator.md R178). -/
def Obligations.CountersChangeOnlyOnSuccess : Prop :=
  ∀ (i : Instr) (s t : State), exec i s = .next t →
    let same := t.totalCount = s.totalCount ∧ t.faultCount = s.faultCount ∧ t.hitCount = s.hitCount
    match i with
    | .xlate _ =>
      (t.bsReq ≠ none → same) ∧
      (t.bsReq = none → ∃ r, t.rsp = some r ∧ (r.status ≠ .ok → same) ∧
        (r.status = .ok →
          t.totalCount.toNat = min (s.totalCount.toNat + 1) 4294967295 ∧
          t.faultCount.toNat = min (s.faultCount.toNat + r.fault.toNat) 4294967295 ∧
          t.hitCount.toNat = min (s.hitCount.toNat + r.hit.toNat) 4294967295))
    | _ => same

/-- The page table read again after SWAPIN gives the frame SWAPIN returned (44_translator.md R175). -/
def Obligations.ReReadGivesTheFrameOfSwapIn : Prop :=
  ∀ (s t : State) (page : Page) (f : Frame), s.swapIn page = .loaded f t → t.ptLookup page = some f

/-! ### RDCSR -/

/-- RDCSR answers the register's value, HALTED or not, and changes nothing; a reserved number is an illegal
command (44_translator.md R180, 10_state.md R38, R39, R40). -/
def Obligations.RdcsrReadsTheRegister : Prop :=
  ∀ (s : State) (arg : Arg),
    let answer (st : Status) (v : Count) : Response :=
      { status := st, hit := false, fault := false, addr := arg, page := 0#8, offset := 0#8, pa := 0#16,
        value := 0#8, data := v }
    (arg.toNat % 16 ≤ 6 → ∃ v : Count,
      exec (.rdcsr arg) s = .next { s with rsp := some (answer .ok v), bsReq := none } ∧
      (arg.toNat % 16 = 0 → v.toNat = s.cause.toNat * 2 + s.halted.toNat) ∧
      (arg.toNat % 16 = 0 → HaltInv s → v = 0#32 ∨ v = 3#32 ∨ v = 5#32 ∨ v = 7#32) ∧
      (arg.toNat % 16 = 1 → v = s.totalCount) ∧
      (arg.toNat % 16 = 2 → v = s.faultCount) ∧
      (arg.toNat % 16 = 3 → v = s.hitCount) ∧
      (arg.toNat % 16 = 4 → v.toNat = s.nextFrame.toNat) ∧
      (arg.toNat % 16 = 5 → s.tlb.length < 32 → v.toNat = s.tlb.length) ∧
      (arg.toNat % 16 = 5 → TlbInv s → s.config = Config.thisHardware → v.toNat ≤ 16) ∧
      (arg.toNat % 16 = 6 → s.config.tlbCap < 32 → v.toNat = s.config.numFrames * 256 + s.config.tlbCap) ∧
      (arg.toNat % 16 = 6 → s.config = Config.thisHardware → v = 0x00010010#32)) ∧
    (7 ≤ arg.toNat % 16 →
      exec (.rdcsr arg) s = .next { s with rsp := some (answer .illegalCommand 0#32), bsReq := none }) ∧
    opOf (encode (.rdcsr arg)) = 2#4 ∧ argOf (encode (.rdcsr arg)) = arg

/-- REPORT answers the three counters in order, in three steps, and changes nothing else
(30_encoding.md R102). -/
def Obligations.ReportReadsTheThreeCounters : Prop :=
  ∀ (s : State) (rest : List Input), s.inputs = reportInputs ++ rest → s.bsReq = none →
    ∃ t1 t2 t3, step s = .next t1 ∧ step t1 = .next t2 ∧ step t2 = .next t3 ∧
      t1.rsp.map (fun r => (r.status, r.data)) = some (.ok, s.totalCount) ∧
      t2.rsp.map (fun r => (r.status, r.data)) = some (.ok, s.faultCount) ∧
      t3.rsp.map (fun r => (r.status, r.data)) = some (.ok, s.hitCount) ∧
      t3 = { s with rsp := t3.rsp, inputs := rest }

/-! ### Whole-machine rules -/

/-- The reset state is well formed (10_state.md section 10). -/
def Obligations.ResetStateIsWellFormed : Prop := Inv State.reset

/-- Every step keeps the well-formedness predicate of a reachable state (10_state.md section 10). -/
def Obligations.EveryStepKeepsWellFormedness : Prop :=
  ∀ s t : State, Inv s → step s = .next t → Inv t

/-- From a well-formed state no step faults or is refused by the model, and no XLATE ends in InvalidAddress
(43_physical_memory.md section RDBYTE). -/
def Obligations.WellFormedStatesNeverFault : Prop :=
  ∀ s : State, Inv s → StepSafe s ∧
    ∀ (addr : Arg) (t : State) (r : Response), exec (.xlate addr) s = .next t → t.bsReq = none →
      t.rsp = some r → r.status ≠ .error .invalidAddress

/-- With 256 frames the block cannot run out of them (43_physical_memory.md section SWAPIN). -/
def Obligations.CapacityIsNeverExhaustedAt256Frames : Prop :=
  ∀ (s t : State) (addr : Arg) (r : Response), Inv s → s.config.numFrames = 256 →
    exec (.xlate addr) s = .next t → t.bsReq = none → t.rsp = some r →
    r.status ≠ .error .capacityExhausted

/-- A successful translation delivers the store's byte at the low 16 bits of the address, at the frame of its
page; a page fault takes the next free frame (20_memory.md section 5). -/
def Obligations.TranslationReadsTheStore : Prop :=
  ∀ (s t : State) (addr : Arg) (r : Response), Inv s → exec (.xlate addr) s = .next t →
    t.bsReq = none → t.rsp = some r → r.status = .ok →
    r.value = s.storeByte (addr.setWidth 16) ∧
    ∃ f : Frame, t.ptLookup (pageOf addr) = some f ∧ r.pa.toNat = f.toNat * 256 + addr.toNat % 256 ∧
      (r.fault = true → f.toNat = s.nextFrame.toNat) ∧
      (r.fault = false → s.ptLookup (pageOf addr) = some f)

/-- Once a page is loaded into a frame, every later lookup of it, in the page table or the TLB, gives that
frame (10_state.md section 4). -/
def Obligations.FramesAreStable : Prop :=
  ∀ (s t : State) (p : Page) (f : Frame), Inv s → NoReset s → step s = .next t →
    s.ptLookup p = some f → t.ptLookup p = some f ∧ (t.tlbLookup p = none ∨ t.tlbLookup p = some f)

/-- No byte of physical memory is written twice between resets (43_physical_memory.md section Allocation
order). -/
def Obligations.LoadedBytesNeverChange : Prop :=
  ∀ (s t : State) (a : Nat) (b : Byte), Inv s → NoReset s → step s = .next t →
    readCell s.pm a = some b → readCell t.pm a = some b

/-- Nothing but reset empties the TLB, invalidates an entry, frees a frame, lowers a counter or leaves the
halted condition (70_reset_and_hazards.md section 1). -/
def Obligations.OnlyResetUndoes : Prop :=
  ∀ s t : State, NoReset s → step s = .next t →
    s.tlb.length ≤ t.tlb.length ∧
    (∀ p : Page, s.ptLookup p ≠ none → t.ptLookup p ≠ none) ∧
    s.nextFrame.toNat ≤ t.nextFrame.toNat ∧
    s.totalCount.toNat ≤ t.totalCount.toNat ∧ s.faultCount.toNat ≤ t.faultCount.toNat ∧
    s.hitCount.toNat ≤ t.hitCount.toNat ∧
    (s.halted = true → t.halted = true)

/-- A halted block keeps every element of its state, CAUSE among them, until reset
(60_exceptions.md R208). -/
def Obligations.HaltIsFinal : Prop :=
  ∀ s t : State, s.halted = true → HostDriven s → NoReset s → step s = .next t →
    t = { s with rsp := t.rsp, inputs := t.inputs, bsReq := t.bsReq }

/-- When several conditions hold for one command, the first in the rule's order decides the status
(60_exceptions.md R210). -/
def Obligations.PriorityOfConditions : Prop :=
  ∀ (s t : State) (w : Word) (rest : List Input) (r : Response),
    s.inputs = .host w :: rest → s.bsReq = none → step s = .next t → t.bsReq = none → t.rsp = some r →
    let page := pageOf (argOf w)
    let frame := (s.tlbLookup page).or (s.ptLookup page)
    (IllegalWord w → r.status = .illegalCommand) ∧
    (opOf w = 1#4 → s.halted = true → r.status = .halted) ∧
    (opOf w = 1#4 → s.halted = false → frame = none → s.bsAnswers.head? = some .err →
      r.status = .error .ioError) ∧
    (opOf w = 1#4 → s.halted = false → frame = none → s.bsAnswers.head? = some .ok →
      s.config.numFrames ≤ s.nextFrame.toNat → r.status = .error .capacityExhausted) ∧
    (∀ f, opOf w = 1#4 → s.halted = false → frame = some f → s.config.numFrames ≤ f.toNat →
      r.status = .error .invalidAddress) ∧
    (opOf w = 1#4 → s.halted = false → frame = none → s.bsAnswers.head? = some .ok →
      s.nextFrame.toNat < s.config.numFrames → r.status = .ok) ∧
    (∀ f, opOf w = 1#4 → s.halted = false → frame = some f → f.toNat < s.config.numFrames → r.status = .ok)

/-- Every host command gets exactly one response, which echoes its operand, before the next is accepted; or
the block waits for the store and nothing else changes (30_encoding.md section 1, 70_reset_and_hazards.md
section 3). That commands and answers stand in lists, and that the wait is a step on an empty list of answers,
is the model's choice (notes/assumptions/1.md, 2.md). -/
def Obligations.OneResponsePerCommand : Prop :=
  ∀ (s : State) (w : Word) (rest : List Input), Inv s → s.inputs = .host w :: rest → s.bsReq = none →
    ∃ t, step s = .next t ∧
      ((t.inputs = rest ∧ t.bsReq = none ∧ ∃ r, t.rsp = some r ∧ r.addr = argOf w) ∨
       (s.bsAnswers = [] ∧ t = { s with bsReq := some (pageOf (argOf w)) }))

/-- No operation writes the configuration, the store or the inputs; only XLATE and SWAPIN read the store, at
most once (20_memory.md section 4, 41_tlb.md section TLBINS, 70_reset_and_hazards.md section 2). That the
configuration is a part of State is inferred (notes/assumptions/12.md). -/
def Obligations.OperationsReadTheStoreAtMostOnce : Prop :=
  ∀ (i : Instr) (s t : State), exec i s = .next t →
    t.config = s.config ∧ t.bs = s.bs ∧ t.inputs = s.inputs ∧
    (t.bsAnswers = s.bsAnswers ∨ ∃ a, s.bsAnswers = a :: t.bsAnswers) ∧
    match i with
    | .xlate _ => True
    | .swapin _ => True
    | _ => t.bsAnswers = s.bsAnswers

/-- What the TLB holds cannot change a translation's result, only `rsp_hit` (10_state.md section 9). -/
def Obligations.TlbContentsDoNotChangeResults : Prop :=
  ∀ (s u t v : State) (addr : Arg) (r q : Response), Inv s → Inv u →
    u = { s with tlb := u.tlb, totalCount := u.totalCount, hitCount := u.hitCount } →
    exec (.xlate addr) s = .next t → exec (.xlate addr) u = .next v →
    t.bsReq = none → v.bsReq = none → t.rsp = some r → v.rsp = some q →
    q = { r with hit := q.hit }

/-- The first access to a page faults, and an immediate second access to it hits the TLB
(44_translator.md section XLATE). -/
def Obligations.ColdStartLaw : Prop :=
  ∀ (s : State) (addr : Arg) (rest : List BsAnswer), Inv s → s.halted = false →
    s.ptLookup (pageOf addr) = none → s.bsAnswers = .ok :: rest →
    s.nextFrame.toNat < s.config.numFrames →
    ∃ t r, exec (.xlate addr) s = .next t ∧ t.rsp = some r ∧ r.status = .ok ∧ r.hit = false ∧
      r.fault = true ∧
      ∀ again : Arg, pageOf again = pageOf addr →
        ∃ u q, exec (.xlate again) t = .next u ∧ u.rsp = some q ∧ q.status = .ok ∧ q.hit = true ∧
          q.fault = false

/-- A run of translations with a store that answers loads each distinct page once; it ends well while the
frames last and else in CapacityExhausted (70_reset_and_hazards.md section 3, 95_test_vectors.md E8). That the
trace and the answers stand in lists is the model's choice (notes/assumptions/1.md, 2.md). -/
def Obligations.RunLoadsEachDistinctPageOnce : Prop :=
  ∀ (s : State) (trace : List Arg) (m : Nat), Inv s → s.halted = false → s.bsReq = none →
    s.inputs = trace.map (fun a => Input.host (encode (.xlate a))) →
    s.bsAnswers = List.replicate m .ok → trace.length ≤ m →
    let fresh := ((trace.map pageOf).filter (fun p => (s.ptLookup p).isNone)).toFinset.card
    ∃ t, runSteps trace.length s = .next t ∧ t.inputs = [] ∧
      (s.nextFrame.toNat + fresh ≤ s.config.numFrames →
        t.halted = false ∧ t.nextFrame.toNat = s.nextFrame.toNat + fresh ∧
        t.faultCount.toNat = s.faultCount.toNat + fresh ∧
        t.totalCount.toNat = min (s.totalCount.toNat + trace.length) 4294967295) ∧
      (s.config.numFrames < s.nextFrame.toNat + fresh →
        t.halted = true ∧ t.cause = 2#3 ∧ t.nextFrame.toNat = s.config.numFrames)

/-! ### Codes and the host's side -/

/-- The status and cause codes (60_exceptions.md section 1). -/
def Obligations.StatusAndCauseCodes : Prop :=
  (statusCode .ok).toNat = 0 ∧ (statusCode (.error .ioError)).toNat = 1 ∧
  (statusCode (.error .capacityExhausted)).toNat = 2 ∧ (statusCode (.error .invalidAddress)).toNat = 3 ∧
  (statusCode .illegalCommand).toNat = 4 ∧ (statusCode .halted).toNat = 5 ∧
  ∀ e, (causeCode e).toNat = (statusCode (.error e)).toNat

/-- A trace value becomes XLATE of its low 32 bits, which translates as the value itself would; a line that
is no number becomes no command (30_encoding.md sections 2 and 5). That a line is an optional number, and that
the later lines still become commands, is the model's choice (notes/assumptions/15.md, 20.md). -/
def Obligations.TraceValuesBecomeTranslations : Prop :=
  (∀ n : Nat, hostDecode (xlateCommand n) = .ok (.xlate (BitVec.ofNat 32 n)) ∧
    (n < 4294967296 → (BitVec.ofNat 32 n).toNat = n) ∧
    (pageOf (BitVec.ofNat 32 n)).toNat = n / 256 % 256 ∧ (offsetOf (BitVec.ofNat 32 n)).toNat = n % 256) ∧
  (∀ (n : Nat) (lines : List (Option Nat)),
    traceInputs (some n :: lines) = .host (xlateCommand n) :: traceInputs lines ∧
    traceInputs (none :: lines) = traceInputs lines)

/-- A byte's signed reading is two's complement, from -128 to 127, and widening it is sign extension
(00_scope.md section 7; the representation is general knowledge, 93_implementation_defined.md G1,
notes/assumptions/16.md). -/
def Obligations.SignedReadingOfAByte : Prop :=
  ∀ b : Byte, signedByte b = b.toInt ∧ -128 ≤ signedByte b ∧ signedByte b ≤ 127 ∧
    (b.signExtend 32).toInt = signedByte b

/-- In a well-formed state with a translation counted, both rates are defined and lie between 0 and 1; with
none counted they are undefined (44_translator.md section RDCSR, 91_not_in_source.md N14). -/
def Obligations.RatesLieBetweenZeroAndOne : Prop :=
  (∀ s : State, Inv s → s.totalCount ≠ 0#32 →
    ∃ p q : Rat, rate s.faultCount s.totalCount = some p ∧ rate s.hitCount s.totalCount = some q ∧
      0 ≤ p ∧ p ≤ 1 ∧ 0 ≤ q ∧ q ≤ 1) ∧
  ∀ n : Count, rate n 0#32 = none

/-- HALTED and CAUSE keep the first error of the run: on a halted block no operation, on whichever port, and no
step but a reset changes either (10_state.md section 7, 60_exceptions.md section 2). That a micro-operation can
be presented to a halted block at all is the model's choice (notes/assumptions/8.md). -/
def Obligations.FirstErrorIsKept : Prop :=
  ∀ s t : State, s.halted = true →
    (∀ i : Instr, exec i s = .next t → t.halted = true ∧ t.cause = s.cause) ∧
    (NoReset s → step s = .next t → t.halted = true ∧ t.cause = s.cause)
end

