-- ==== Sys2Proof/Laws/Memory.lean ====
section
/-! SUPPORT. The laws of memory as a list of cells: what a block write changes, what it leaves, and that it
keeps the canonical form. -/

namespace Sys2Proof.Machine

theorem readCell_nil (a : Nat) : readCell [] a = none := rfl

theorem readCell_append (m n : List Host.Cell) (a : Nat) :
    readCell (m ++ n) a = (readCell m a).or (readCell n a) := by
  simp only [readCell, List.find?_append]
  cases m.find? (fun c => c.1 == a) <;> simp

theorem readCell_none_of_forall {m : List Host.Cell} {a : Nat} (h : ∀ c ∈ m, c.1 ≠ a) :
    readCell m a = none := by
  have : m.find? (fun c => c.1 == a) = none := by
    rw [List.find?_eq_none]
    intro c hc
    simpa using h c hc
  simp [readCell, this]

/-- A filter that keeps every cell of an address does not change what the address reads as. -/
theorem readCell_filter {m : List Host.Cell} {p : Host.Cell → Bool} {a : Nat}
    (h : ∀ c : Host.Cell, c.1 = a → p c = true) : readCell (m.filter p) a = readCell m a := by
  have : (m.filter p).find? (fun c => c.1 == a) = m.find? (fun c => c.1 == a) := by
    rw [List.find?_filter]
    congr 1
    funext c
    by_cases hc : c.1 = a
    · simp [hc, h c hc]
    · simp [hc]
  simp [readCell, this]

theorem mem_cellsFrom_le {bytes : List Byte} {base : Nat} {c : Host.Cell}
    (h : c ∈ cellsFrom base bytes) : base ≤ c.1 ∧ c.1 < base + bytes.length := by
  induction bytes generalizing base with
  | nil => simp [cellsFrom] at h
  | cons b rest ih =>
    rcases List.mem_cons.1 h with rfl | h
    · simp
    · have := ih h
      simp only [List.length_cons]
      omega

theorem cellsFrom_pairwise (bytes : List Byte) (base : Nat) :
    (cellsFrom base bytes).Pairwise (fun c d => c.1 < d.1) := by
  induction bytes generalizing base with
  | nil => exact List.Pairwise.nil
  | cons b rest ih =>
    refine List.Pairwise.cons (fun c hc => ?_) (ih (base + 1))
    have := (mem_cellsFrom_le hc).1
    simp only
    omega

theorem readCell_cellsFrom {bytes : List Byte} {base k : Nat} (h : k < bytes.length) :
    readCell (cellsFrom base bytes) (base + k) = some bytes[k] := by
  induction bytes generalizing base k with
  | nil => simp at h
  | cons b rest ih =>
    cases k with
    | zero => simp [readCell, cellsFrom]
    | succ k =>
      have hk : k < rest.length := by simpa using h
      have := ih (base := base + 1) hk
      have hne : ¬ base = base + (k + 1) := by omega
      rw [show base + (k + 1) = base + 1 + k by omega] at *
      simpa [readCell, cellsFrom, List.find?_cons, hne] using this

/-- Inside the block a write stores its bytes. -/
theorem readCell_writeBlock_inside (m : List Host.Cell) {base k : Nat} {bytes : List Byte}
    (h : k < bytes.length) : readCell (writeBlock m base bytes) (base + k) = some bytes[k] := by
  have hl : readCell (m.filter (fun c => decide (c.1 < base))) (base + k) = none := by
    refine readCell_none_of_forall (fun c hc => ?_)
    have := (List.mem_filter.1 hc).2
    simp only [decide_eq_true_eq] at this
    omega
  simp [writeBlock, readCell_append, hl, readCell_cellsFrom h]

/-- Outside the block a write changes no byte. -/
theorem readCell_writeBlock_outside (m : List Host.Cell) {base a : Nat} {bytes : List Byte}
    (h : a < base ∨ base + bytes.length ≤ a) :
    readCell (writeBlock m base bytes) a = readCell m a := by
  have hc : readCell (cellsFrom base bytes) a = none := by
    refine readCell_none_of_forall (fun c hc => ?_)
    have := mem_cellsFrom_le hc
    omega
  simp only [writeBlock, readCell_append, hc, Option.or_none]
  rcases h with h | h
  · have hr : readCell (m.filter (fun c => decide (base + bytes.length ≤ c.1))) a = none := by
      refine readCell_none_of_forall (fun c hc => ?_)
      have := (List.mem_filter.1 hc).2
      simp only [decide_eq_true_eq] at this
      omega
    rw [hr, Option.or_none]
    exact readCell_filter (fun c hc => by simp [hc, h])
  · have hl : readCell (m.filter (fun c => decide (c.1 < base))) a = none := by
      refine readCell_none_of_forall (fun c hc => ?_)
      have := (List.mem_filter.1 hc).2
      simp only [decide_eq_true_eq] at this
      omega
    rw [hl, Option.none_or]
    exact readCell_filter (fun c hc => by simp [hc, h])

/-- The cells after a block write lie in the block or were there before. -/
theorem mem_writeBlock {m : List Host.Cell} {base : Nat} {bytes : List Byte} {c : Host.Cell}
    (h : c ∈ writeBlock m base bytes) : c ∈ m ∨ (base ≤ c.1 ∧ c.1 < base + bytes.length) := by
  simp only [writeBlock, List.mem_append, List.mem_filter] at h
  rcases h with (h | h) | h
  · exact .inl h.1
  · exact .inr (mem_cellsFrom_le h)
  · exact .inl h.1

/-- A block write keeps the canonical form. -/
theorem memoryWf_writeBlock {m : List Host.Cell} (base : Nat) (bytes : List Byte)
    (h : memoryWf m = true) : memoryWf (writeBlock m base bytes) = true := by
  simp only [memoryWf, decide_eq_true_eq] at h ⊢
  have hlow : ∀ c ∈ m.filter (fun c => decide (c.1 < base)), c.1 < base := fun c hc => by
    simpa using (List.mem_filter.1 hc).2
  have hhigh : ∀ c ∈ m.filter (fun c => decide (base + bytes.length ≤ c.1)),
      base + bytes.length ≤ c.1 := fun c hc => by simpa using (List.mem_filter.1 hc).2
  refine List.pairwise_append.2 ⟨List.pairwise_append.2 ⟨h.filter _, cellsFrom_pairwise _ _, ?_⟩,
    h.filter _, ?_⟩
  · intro c hc d hd
    exact Nat.lt_of_lt_of_le (hlow c hc) (mem_cellsFrom_le hd).1
  · intro c hc d hd
    have hd' := hhigh d hd
    rcases List.mem_append.1 hc with hc | hc
    · have := hlow c hc
      omega
    · have := (mem_cellsFrom_le hc).2
      omega

theorem memoryWf_reset : memoryWf State.reset.pm = true := rfl

end Sys2Proof.Machine
end

