-- ==== Sys2Proof/Laws/State.lean ====
section
/-! SUPPORT. One lemma per field per update of State, so that no later proof unfolds a record update. -/

namespace Sys2Proof.Machine

/-- The state after a successful SWAPIN (43_physical_memory.md R151). -/
def State.swapped (page : Page) (rest : List BsAnswer) (s : State) : State :=
  { s.takeAnswer rest with
    pm := writeBlock s.pm ((s.nextFrame.setWidth 8 : Frame).toNat * 256) (s.storePage page)
    nextFrame := s.nextFrame + 1#9
    pt := s.pt.set page.toNat (some (s.nextFrame.setWidth 8)) page.isLt }

/-- The state and response of an XLATE that ends well (44_translator.md R171 step 7). -/
def State.answered (addr : Arg) (hit fault : Bool) (frame : Frame) (value : Byte) (s : State) : State :=
  (s.countXlate hit fault).respond (okResponse addr hit fault frame value)

/-! ### countXlate -/

@[simp] theorem State.countXlate_tlb (s : State) (hit fault : Bool) : (s.countXlate hit fault).tlb = s.tlb := rfl
@[simp] theorem State.countXlate_pt (s : State) (hit fault : Bool) : (s.countXlate hit fault).pt = s.pt := rfl
@[simp] theorem State.countXlate_pm (s : State) (hit fault : Bool) : (s.countXlate hit fault).pm = s.pm := rfl
@[simp] theorem State.countXlate_nextFrame (s : State) (hit fault : Bool) : (s.countXlate hit fault).nextFrame = s.nextFrame := rfl
@[simp] theorem State.countXlate_totalCount (s : State) (hit fault : Bool) : (s.countXlate hit fault).totalCount = satAdd s.totalCount true := rfl
@[simp] theorem State.countXlate_faultCount (s : State) (hit fault : Bool) : (s.countXlate hit fault).faultCount = satAdd s.faultCount fault := rfl
@[simp] theorem State.countXlate_hitCount (s : State) (hit fault : Bool) : (s.countXlate hit fault).hitCount = satAdd s.hitCount hit := rfl
@[simp] theorem State.countXlate_halted (s : State) (hit fault : Bool) : (s.countXlate hit fault).halted = s.halted := rfl
@[simp] theorem State.countXlate_cause (s : State) (hit fault : Bool) : (s.countXlate hit fault).cause = s.cause := rfl
@[simp] theorem State.countXlate_config (s : State) (hit fault : Bool) : (s.countXlate hit fault).config = s.config := rfl
@[simp] theorem State.countXlate_rsp (s : State) (hit fault : Bool) : (s.countXlate hit fault).rsp = s.rsp := rfl
@[simp] theorem State.countXlate_bus (s : State) (hit fault : Bool) : (s.countXlate hit fault).bus = s.bus := rfl
@[simp] theorem State.countXlate_bsReq (s : State) (hit fault : Bool) : (s.countXlate hit fault).bsReq = s.bsReq := rfl
@[simp] theorem State.countXlate_inputs (s : State) (hit fault : Bool) : (s.countXlate hit fault).inputs = s.inputs := rfl
@[simp] theorem State.countXlate_bsAnswers (s : State) (hit fault : Bool) : (s.countXlate hit fault).bsAnswers = s.bsAnswers := rfl
@[simp] theorem State.countXlate_bs (s : State) (hit fault : Bool) : (s.countXlate hit fault).bs = s.bs := rfl

/-! ### tlbInsert -/

@[simp] theorem State.tlbInsert_tlb (s : State) (p : Page) (f : Frame) : (s.tlbInsert p f).tlb = tlbAppend s.config.tlbCap s.tlb { page := p, frame := f } := rfl
@[simp] theorem State.tlbInsert_pt (s : State) (p : Page) (f : Frame) : (s.tlbInsert p f).pt = s.pt := rfl
@[simp] theorem State.tlbInsert_pm (s : State) (p : Page) (f : Frame) : (s.tlbInsert p f).pm = s.pm := rfl
@[simp] theorem State.tlbInsert_nextFrame (s : State) (p : Page) (f : Frame) : (s.tlbInsert p f).nextFrame = s.nextFrame := rfl
@[simp] theorem State.tlbInsert_totalCount (s : State) (p : Page) (f : Frame) : (s.tlbInsert p f).totalCount = s.totalCount := rfl
@[simp] theorem State.tlbInsert_faultCount (s : State) (p : Page) (f : Frame) : (s.tlbInsert p f).faultCount = s.faultCount := rfl
@[simp] theorem State.tlbInsert_hitCount (s : State) (p : Page) (f : Frame) : (s.tlbInsert p f).hitCount = s.hitCount := rfl
@[simp] theorem State.tlbInsert_halted (s : State) (p : Page) (f : Frame) : (s.tlbInsert p f).halted = s.halted := rfl
@[simp] theorem State.tlbInsert_cause (s : State) (p : Page) (f : Frame) : (s.tlbInsert p f).cause = s.cause := rfl
@[simp] theorem State.tlbInsert_config (s : State) (p : Page) (f : Frame) : (s.tlbInsert p f).config = s.config := rfl
@[simp] theorem State.tlbInsert_rsp (s : State) (p : Page) (f : Frame) : (s.tlbInsert p f).rsp = s.rsp := rfl
@[simp] theorem State.tlbInsert_bus (s : State) (p : Page) (f : Frame) : (s.tlbInsert p f).bus = s.bus := rfl
@[simp] theorem State.tlbInsert_bsReq (s : State) (p : Page) (f : Frame) : (s.tlbInsert p f).bsReq = s.bsReq := rfl
@[simp] theorem State.tlbInsert_inputs (s : State) (p : Page) (f : Frame) : (s.tlbInsert p f).inputs = s.inputs := rfl
@[simp] theorem State.tlbInsert_bsAnswers (s : State) (p : Page) (f : Frame) : (s.tlbInsert p f).bsAnswers = s.bsAnswers := rfl
@[simp] theorem State.tlbInsert_bs (s : State) (p : Page) (f : Frame) : (s.tlbInsert p f).bs = s.bs := rfl

/-! ### ptMark -/

@[simp] theorem State.ptMark_tlb (s : State) (p : Page) (f : Frame) : (s.ptMark p f).tlb = s.tlb := rfl
@[simp] theorem State.ptMark_pt (s : State) (p : Page) (f : Frame) : (s.ptMark p f).pt = s.pt.set p.toNat (some f) p.isLt := rfl
@[simp] theorem State.ptMark_pm (s : State) (p : Page) (f : Frame) : (s.ptMark p f).pm = s.pm := rfl
@[simp] theorem State.ptMark_nextFrame (s : State) (p : Page) (f : Frame) : (s.ptMark p f).nextFrame = s.nextFrame := rfl
@[simp] theorem State.ptMark_totalCount (s : State) (p : Page) (f : Frame) : (s.ptMark p f).totalCount = s.totalCount := rfl
@[simp] theorem State.ptMark_faultCount (s : State) (p : Page) (f : Frame) : (s.ptMark p f).faultCount = s.faultCount := rfl
@[simp] theorem State.ptMark_hitCount (s : State) (p : Page) (f : Frame) : (s.ptMark p f).hitCount = s.hitCount := rfl
@[simp] theorem State.ptMark_halted (s : State) (p : Page) (f : Frame) : (s.ptMark p f).halted = s.halted := rfl
@[simp] theorem State.ptMark_cause (s : State) (p : Page) (f : Frame) : (s.ptMark p f).cause = s.cause := rfl
@[simp] theorem State.ptMark_config (s : State) (p : Page) (f : Frame) : (s.ptMark p f).config = s.config := rfl
@[simp] theorem State.ptMark_rsp (s : State) (p : Page) (f : Frame) : (s.ptMark p f).rsp = s.rsp := rfl
@[simp] theorem State.ptMark_bus (s : State) (p : Page) (f : Frame) : (s.ptMark p f).bus = s.bus := rfl
@[simp] theorem State.ptMark_bsReq (s : State) (p : Page) (f : Frame) : (s.ptMark p f).bsReq = s.bsReq := rfl
@[simp] theorem State.ptMark_inputs (s : State) (p : Page) (f : Frame) : (s.ptMark p f).inputs = s.inputs := rfl
@[simp] theorem State.ptMark_bsAnswers (s : State) (p : Page) (f : Frame) : (s.ptMark p f).bsAnswers = s.bsAnswers := rfl
@[simp] theorem State.ptMark_bs (s : State) (p : Page) (f : Frame) : (s.ptMark p f).bs = s.bs := rfl

/-! ### fillFrame -/

@[simp] theorem State.fillFrame_tlb (s : State) (p : Page) (f : Frame) : (s.fillFrame p f).tlb = s.tlb := rfl
@[simp] theorem State.fillFrame_pt (s : State) (p : Page) (f : Frame) : (s.fillFrame p f).pt = s.pt := rfl
@[simp] theorem State.fillFrame_pm (s : State) (p : Page) (f : Frame) : (s.fillFrame p f).pm = writeBlock s.pm (f.toNat * Config.frameSize) (s.storePage p) := rfl
@[simp] theorem State.fillFrame_nextFrame (s : State) (p : Page) (f : Frame) : (s.fillFrame p f).nextFrame = s.nextFrame := rfl
@[simp] theorem State.fillFrame_totalCount (s : State) (p : Page) (f : Frame) : (s.fillFrame p f).totalCount = s.totalCount := rfl
@[simp] theorem State.fillFrame_faultCount (s : State) (p : Page) (f : Frame) : (s.fillFrame p f).faultCount = s.faultCount := rfl
@[simp] theorem State.fillFrame_hitCount (s : State) (p : Page) (f : Frame) : (s.fillFrame p f).hitCount = s.hitCount := rfl
@[simp] theorem State.fillFrame_halted (s : State) (p : Page) (f : Frame) : (s.fillFrame p f).halted = s.halted := rfl
@[simp] theorem State.fillFrame_cause (s : State) (p : Page) (f : Frame) : (s.fillFrame p f).cause = s.cause := rfl
@[simp] theorem State.fillFrame_config (s : State) (p : Page) (f : Frame) : (s.fillFrame p f).config = s.config := rfl
@[simp] theorem State.fillFrame_rsp (s : State) (p : Page) (f : Frame) : (s.fillFrame p f).rsp = s.rsp := rfl
@[simp] theorem State.fillFrame_bus (s : State) (p : Page) (f : Frame) : (s.fillFrame p f).bus = s.bus := rfl
@[simp] theorem State.fillFrame_bsReq (s : State) (p : Page) (f : Frame) : (s.fillFrame p f).bsReq = s.bsReq := rfl
@[simp] theorem State.fillFrame_inputs (s : State) (p : Page) (f : Frame) : (s.fillFrame p f).inputs = s.inputs := rfl
@[simp] theorem State.fillFrame_bsAnswers (s : State) (p : Page) (f : Frame) : (s.fillFrame p f).bsAnswers = s.bsAnswers := rfl
@[simp] theorem State.fillFrame_bs (s : State) (p : Page) (f : Frame) : (s.fillFrame p f).bs = s.bs := rfl

/-! ### respond -/

@[simp] theorem State.respond_tlb (s : State) (r : Response) : (s.respond r).tlb = s.tlb := rfl
@[simp] theorem State.respond_pt (s : State) (r : Response) : (s.respond r).pt = s.pt := rfl
@[simp] theorem State.respond_pm (s : State) (r : Response) : (s.respond r).pm = s.pm := rfl
@[simp] theorem State.respond_nextFrame (s : State) (r : Response) : (s.respond r).nextFrame = s.nextFrame := rfl
@[simp] theorem State.respond_totalCount (s : State) (r : Response) : (s.respond r).totalCount = s.totalCount := rfl
@[simp] theorem State.respond_faultCount (s : State) (r : Response) : (s.respond r).faultCount = s.faultCount := rfl
@[simp] theorem State.respond_hitCount (s : State) (r : Response) : (s.respond r).hitCount = s.hitCount := rfl
@[simp] theorem State.respond_halted (s : State) (r : Response) : (s.respond r).halted = s.halted := rfl
@[simp] theorem State.respond_cause (s : State) (r : Response) : (s.respond r).cause = s.cause := rfl
@[simp] theorem State.respond_config (s : State) (r : Response) : (s.respond r).config = s.config := rfl
@[simp] theorem State.respond_rsp (s : State) (r : Response) : (s.respond r).rsp = some r := rfl
@[simp] theorem State.respond_bus (s : State) (r : Response) : (s.respond r).bus = s.bus := rfl
@[simp] theorem State.respond_bsReq (s : State) (r : Response) : (s.respond r).bsReq = none := rfl
@[simp] theorem State.respond_inputs (s : State) (r : Response) : (s.respond r).inputs = s.inputs := rfl
@[simp] theorem State.respond_bsAnswers (s : State) (r : Response) : (s.respond r).bsAnswers = s.bsAnswers := rfl
@[simp] theorem State.respond_bs (s : State) (r : Response) : (s.respond r).bs = s.bs := rfl

/-! ### busAnswer -/

@[simp] theorem State.busAnswer_tlb (s : State) (r : BusResult) : (s.busAnswer r).tlb = s.tlb := rfl
@[simp] theorem State.busAnswer_pt (s : State) (r : BusResult) : (s.busAnswer r).pt = s.pt := rfl
@[simp] theorem State.busAnswer_pm (s : State) (r : BusResult) : (s.busAnswer r).pm = s.pm := rfl
@[simp] theorem State.busAnswer_nextFrame (s : State) (r : BusResult) : (s.busAnswer r).nextFrame = s.nextFrame := rfl
@[simp] theorem State.busAnswer_totalCount (s : State) (r : BusResult) : (s.busAnswer r).totalCount = s.totalCount := rfl
@[simp] theorem State.busAnswer_faultCount (s : State) (r : BusResult) : (s.busAnswer r).faultCount = s.faultCount := rfl
@[simp] theorem State.busAnswer_hitCount (s : State) (r : BusResult) : (s.busAnswer r).hitCount = s.hitCount := rfl
@[simp] theorem State.busAnswer_halted (s : State) (r : BusResult) : (s.busAnswer r).halted = s.halted := rfl
@[simp] theorem State.busAnswer_cause (s : State) (r : BusResult) : (s.busAnswer r).cause = s.cause := rfl
@[simp] theorem State.busAnswer_config (s : State) (r : BusResult) : (s.busAnswer r).config = s.config := rfl
@[simp] theorem State.busAnswer_rsp (s : State) (r : BusResult) : (s.busAnswer r).rsp = s.rsp := rfl
@[simp] theorem State.busAnswer_bus (s : State) (r : BusResult) : (s.busAnswer r).bus = some r := rfl
@[simp] theorem State.busAnswer_bsReq (s : State) (r : BusResult) : (s.busAnswer r).bsReq = none := rfl
@[simp] theorem State.busAnswer_inputs (s : State) (r : BusResult) : (s.busAnswer r).inputs = s.inputs := rfl
@[simp] theorem State.busAnswer_bsAnswers (s : State) (r : BusResult) : (s.busAnswer r).bsAnswers = s.bsAnswers := rfl
@[simp] theorem State.busAnswer_bs (s : State) (r : BusResult) : (s.busAnswer r).bs = s.bs := rfl

/-! ### awaitStore -/

@[simp] theorem State.awaitStore_tlb (s : State) (p : Page) : (s.awaitStore p).tlb = s.tlb := rfl
@[simp] theorem State.awaitStore_pt (s : State) (p : Page) : (s.awaitStore p).pt = s.pt := rfl
@[simp] theorem State.awaitStore_pm (s : State) (p : Page) : (s.awaitStore p).pm = s.pm := rfl
@[simp] theorem State.awaitStore_nextFrame (s : State) (p : Page) : (s.awaitStore p).nextFrame = s.nextFrame := rfl
@[simp] theorem State.awaitStore_totalCount (s : State) (p : Page) : (s.awaitStore p).totalCount = s.totalCount := rfl
@[simp] theorem State.awaitStore_faultCount (s : State) (p : Page) : (s.awaitStore p).faultCount = s.faultCount := rfl
@[simp] theorem State.awaitStore_hitCount (s : State) (p : Page) : (s.awaitStore p).hitCount = s.hitCount := rfl
@[simp] theorem State.awaitStore_halted (s : State) (p : Page) : (s.awaitStore p).halted = s.halted := rfl
@[simp] theorem State.awaitStore_cause (s : State) (p : Page) : (s.awaitStore p).cause = s.cause := rfl
@[simp] theorem State.awaitStore_config (s : State) (p : Page) : (s.awaitStore p).config = s.config := rfl
@[simp] theorem State.awaitStore_rsp (s : State) (p : Page) : (s.awaitStore p).rsp = s.rsp := rfl
@[simp] theorem State.awaitStore_bus (s : State) (p : Page) : (s.awaitStore p).bus = s.bus := rfl
@[simp] theorem State.awaitStore_bsReq (s : State) (p : Page) : (s.awaitStore p).bsReq = some p := rfl
@[simp] theorem State.awaitStore_inputs (s : State) (p : Page) : (s.awaitStore p).inputs = s.inputs := rfl
@[simp] theorem State.awaitStore_bsAnswers (s : State) (p : Page) : (s.awaitStore p).bsAnswers = s.bsAnswers := rfl
@[simp] theorem State.awaitStore_bs (s : State) (p : Page) : (s.awaitStore p).bs = s.bs := rfl

/-! ### answerIllegal -/

@[simp] theorem State.answerIllegal_tlb (s : State) (a : Arg) : (s.answerIllegal a).tlb = s.tlb := rfl
@[simp] theorem State.answerIllegal_pt (s : State) (a : Arg) : (s.answerIllegal a).pt = s.pt := rfl
@[simp] theorem State.answerIllegal_pm (s : State) (a : Arg) : (s.answerIllegal a).pm = s.pm := rfl
@[simp] theorem State.answerIllegal_nextFrame (s : State) (a : Arg) : (s.answerIllegal a).nextFrame = s.nextFrame := rfl
@[simp] theorem State.answerIllegal_totalCount (s : State) (a : Arg) : (s.answerIllegal a).totalCount = s.totalCount := rfl
@[simp] theorem State.answerIllegal_faultCount (s : State) (a : Arg) : (s.answerIllegal a).faultCount = s.faultCount := rfl
@[simp] theorem State.answerIllegal_hitCount (s : State) (a : Arg) : (s.answerIllegal a).hitCount = s.hitCount := rfl
@[simp] theorem State.answerIllegal_halted (s : State) (a : Arg) : (s.answerIllegal a).halted = s.halted := rfl
@[simp] theorem State.answerIllegal_cause (s : State) (a : Arg) : (s.answerIllegal a).cause = s.cause := rfl
@[simp] theorem State.answerIllegal_config (s : State) (a : Arg) : (s.answerIllegal a).config = s.config := rfl
@[simp] theorem State.answerIllegal_rsp (s : State) (a : Arg) : (s.answerIllegal a).rsp = some (Response.bare .illegalCommand a) := rfl
@[simp] theorem State.answerIllegal_bus (s : State) (a : Arg) : (s.answerIllegal a).bus = s.bus := rfl
@[simp] theorem State.answerIllegal_bsReq (s : State) (a : Arg) : (s.answerIllegal a).bsReq = none := rfl
@[simp] theorem State.answerIllegal_inputs (s : State) (a : Arg) : (s.answerIllegal a).inputs = s.inputs := rfl
@[simp] theorem State.answerIllegal_bsAnswers (s : State) (a : Arg) : (s.answerIllegal a).bsAnswers = s.bsAnswers := rfl
@[simp] theorem State.answerIllegal_bs (s : State) (a : Arg) : (s.answerIllegal a).bs = s.bs := rfl

/-! ### takeAnswer -/

@[simp] theorem State.takeAnswer_tlb (s : State) (rest : List BsAnswer) : (s.takeAnswer rest).tlb = s.tlb := rfl
@[simp] theorem State.takeAnswer_pt (s : State) (rest : List BsAnswer) : (s.takeAnswer rest).pt = s.pt := rfl
@[simp] theorem State.takeAnswer_pm (s : State) (rest : List BsAnswer) : (s.takeAnswer rest).pm = s.pm := rfl
@[simp] theorem State.takeAnswer_nextFrame (s : State) (rest : List BsAnswer) : (s.takeAnswer rest).nextFrame = s.nextFrame := rfl
@[simp] theorem State.takeAnswer_totalCount (s : State) (rest : List BsAnswer) : (s.takeAnswer rest).totalCount = s.totalCount := rfl
@[simp] theorem State.takeAnswer_faultCount (s : State) (rest : List BsAnswer) : (s.takeAnswer rest).faultCount = s.faultCount := rfl
@[simp] theorem State.takeAnswer_hitCount (s : State) (rest : List BsAnswer) : (s.takeAnswer rest).hitCount = s.hitCount := rfl
@[simp] theorem State.takeAnswer_halted (s : State) (rest : List BsAnswer) : (s.takeAnswer rest).halted = s.halted := rfl
@[simp] theorem State.takeAnswer_cause (s : State) (rest : List BsAnswer) : (s.takeAnswer rest).cause = s.cause := rfl
@[simp] theorem State.takeAnswer_config (s : State) (rest : List BsAnswer) : (s.takeAnswer rest).config = s.config := rfl
@[simp] theorem State.takeAnswer_rsp (s : State) (rest : List BsAnswer) : (s.takeAnswer rest).rsp = s.rsp := rfl
@[simp] theorem State.takeAnswer_bus (s : State) (rest : List BsAnswer) : (s.takeAnswer rest).bus = s.bus := rfl
@[simp] theorem State.takeAnswer_bsReq (s : State) (rest : List BsAnswer) : (s.takeAnswer rest).bsReq = s.bsReq := rfl
@[simp] theorem State.takeAnswer_inputs (s : State) (rest : List BsAnswer) : (s.takeAnswer rest).inputs = s.inputs := rfl
@[simp] theorem State.takeAnswer_bsAnswers (s : State) (rest : List BsAnswer) : (s.takeAnswer rest).bsAnswers = rest := rfl
@[simp] theorem State.takeAnswer_bs (s : State) (rest : List BsAnswer) : (s.takeAnswer rest).bs = s.bs := rfl

/-! ### swapped -/

@[simp] theorem State.swapped_tlb (s : State) (p : Page) (rest : List BsAnswer) : (s.swapped p rest).tlb = s.tlb := rfl
@[simp] theorem State.swapped_pt (s : State) (p : Page) (rest : List BsAnswer) : (s.swapped p rest).pt = s.pt.set p.toNat (some (s.nextFrame.setWidth 8)) p.isLt := rfl
@[simp] theorem State.swapped_pm (s : State) (p : Page) (rest : List BsAnswer) : (s.swapped p rest).pm = writeBlock s.pm ((s.nextFrame.setWidth 8 : Frame).toNat * 256) (s.storePage p) := rfl
@[simp] theorem State.swapped_nextFrame (s : State) (p : Page) (rest : List BsAnswer) : (s.swapped p rest).nextFrame = s.nextFrame + 1#9 := rfl
@[simp] theorem State.swapped_totalCount (s : State) (p : Page) (rest : List BsAnswer) : (s.swapped p rest).totalCount = s.totalCount := rfl
@[simp] theorem State.swapped_faultCount (s : State) (p : Page) (rest : List BsAnswer) : (s.swapped p rest).faultCount = s.faultCount := rfl
@[simp] theorem State.swapped_hitCount (s : State) (p : Page) (rest : List BsAnswer) : (s.swapped p rest).hitCount = s.hitCount := rfl
@[simp] theorem State.swapped_halted (s : State) (p : Page) (rest : List BsAnswer) : (s.swapped p rest).halted = s.halted := rfl
@[simp] theorem State.swapped_cause (s : State) (p : Page) (rest : List BsAnswer) : (s.swapped p rest).cause = s.cause := rfl
@[simp] theorem State.swapped_config (s : State) (p : Page) (rest : List BsAnswer) : (s.swapped p rest).config = s.config := rfl
@[simp] theorem State.swapped_rsp (s : State) (p : Page) (rest : List BsAnswer) : (s.swapped p rest).rsp = s.rsp := rfl
@[simp] theorem State.swapped_bus (s : State) (p : Page) (rest : List BsAnswer) : (s.swapped p rest).bus = s.bus := rfl
@[simp] theorem State.swapped_bsReq (s : State) (p : Page) (rest : List BsAnswer) : (s.swapped p rest).bsReq = s.bsReq := rfl
@[simp] theorem State.swapped_inputs (s : State) (p : Page) (rest : List BsAnswer) : (s.swapped p rest).inputs = s.inputs := rfl
@[simp] theorem State.swapped_bsAnswers (s : State) (p : Page) (rest : List BsAnswer) : (s.swapped p rest).bsAnswers = rest := rfl
@[simp] theorem State.swapped_bs (s : State) (p : Page) (rest : List BsAnswer) : (s.swapped p rest).bs = s.bs := rfl

/-! ### errorEntry -/

@[simp] theorem State.errorEntry_tlb (s : State) (e : Error) : (s.errorEntry e).tlb = s.tlb := rfl
@[simp] theorem State.errorEntry_pt (s : State) (e : Error) : (s.errorEntry e).pt = s.pt := rfl
@[simp] theorem State.errorEntry_pm (s : State) (e : Error) : (s.errorEntry e).pm = s.pm := rfl
@[simp] theorem State.errorEntry_nextFrame (s : State) (e : Error) : (s.errorEntry e).nextFrame = s.nextFrame := rfl
@[simp] theorem State.errorEntry_totalCount (s : State) (e : Error) : (s.errorEntry e).totalCount = s.totalCount := rfl
@[simp] theorem State.errorEntry_faultCount (s : State) (e : Error) : (s.errorEntry e).faultCount = s.faultCount := rfl
@[simp] theorem State.errorEntry_hitCount (s : State) (e : Error) : (s.errorEntry e).hitCount = s.hitCount := rfl
@[simp] theorem State.errorEntry_halted (s : State) (e : Error) : (s.errorEntry e).halted = true := rfl
@[simp] theorem State.errorEntry_cause (s : State) (e : Error) : (s.errorEntry e).cause = if s.halted then s.cause else causeCode e := rfl
@[simp] theorem State.errorEntry_config (s : State) (e : Error) : (s.errorEntry e).config = s.config := rfl
@[simp] theorem State.errorEntry_rsp (s : State) (e : Error) : (s.errorEntry e).rsp = s.rsp := rfl
@[simp] theorem State.errorEntry_bus (s : State) (e : Error) : (s.errorEntry e).bus = s.bus := rfl
@[simp] theorem State.errorEntry_bsReq (s : State) (e : Error) : (s.errorEntry e).bsReq = s.bsReq := rfl
@[simp] theorem State.errorEntry_inputs (s : State) (e : Error) : (s.errorEntry e).inputs = s.inputs := rfl
@[simp] theorem State.errorEntry_bsAnswers (s : State) (e : Error) : (s.errorEntry e).bsAnswers = s.bsAnswers := rfl
@[simp] theorem State.errorEntry_bs (s : State) (e : Error) : (s.errorEntry e).bs = s.bs := rfl

/-! ### failXlate -/

@[simp] theorem State.failXlate_tlb (s : State) (a : Arg) (e : Error) : (s.failXlate a e).tlb = s.tlb := rfl
@[simp] theorem State.failXlate_pt (s : State) (a : Arg) (e : Error) : (s.failXlate a e).pt = s.pt := rfl
@[simp] theorem State.failXlate_pm (s : State) (a : Arg) (e : Error) : (s.failXlate a e).pm = s.pm := rfl
@[simp] theorem State.failXlate_nextFrame (s : State) (a : Arg) (e : Error) : (s.failXlate a e).nextFrame = s.nextFrame := rfl
@[simp] theorem State.failXlate_totalCount (s : State) (a : Arg) (e : Error) : (s.failXlate a e).totalCount = s.totalCount := rfl
@[simp] theorem State.failXlate_faultCount (s : State) (a : Arg) (e : Error) : (s.failXlate a e).faultCount = s.faultCount := rfl
@[simp] theorem State.failXlate_hitCount (s : State) (a : Arg) (e : Error) : (s.failXlate a e).hitCount = s.hitCount := rfl
@[simp] theorem State.failXlate_halted (s : State) (a : Arg) (e : Error) : (s.failXlate a e).halted = true := rfl
@[simp] theorem State.failXlate_cause (s : State) (a : Arg) (e : Error) : (s.failXlate a e).cause = if s.halted then s.cause else causeCode e := rfl
@[simp] theorem State.failXlate_config (s : State) (a : Arg) (e : Error) : (s.failXlate a e).config = s.config := rfl
@[simp] theorem State.failXlate_rsp (s : State) (a : Arg) (e : Error) : (s.failXlate a e).rsp = some (errorResponse a e) := rfl
@[simp] theorem State.failXlate_bus (s : State) (a : Arg) (e : Error) : (s.failXlate a e).bus = s.bus := rfl
@[simp] theorem State.failXlate_bsReq (s : State) (a : Arg) (e : Error) : (s.failXlate a e).bsReq = none := rfl
@[simp] theorem State.failXlate_inputs (s : State) (a : Arg) (e : Error) : (s.failXlate a e).inputs = s.inputs := rfl
@[simp] theorem State.failXlate_bsAnswers (s : State) (a : Arg) (e : Error) : (s.failXlate a e).bsAnswers = s.bsAnswers := rfl
@[simp] theorem State.failXlate_bs (s : State) (a : Arg) (e : Error) : (s.failXlate a e).bs = s.bs := rfl

/-! ### answered -/

@[simp] theorem State.answered_tlb (s : State) (a : Arg) (hit fault : Bool) (f : Frame) (b : Byte) : (s.answered a hit fault f b).tlb = s.tlb := rfl
@[simp] theorem State.answered_pt (s : State) (a : Arg) (hit fault : Bool) (f : Frame) (b : Byte) : (s.answered a hit fault f b).pt = s.pt := rfl
@[simp] theorem State.answered_pm (s : State) (a : Arg) (hit fault : Bool) (f : Frame) (b : Byte) : (s.answered a hit fault f b).pm = s.pm := rfl
@[simp] theorem State.answered_nextFrame (s : State) (a : Arg) (hit fault : Bool) (f : Frame) (b : Byte) : (s.answered a hit fault f b).nextFrame = s.nextFrame := rfl
@[simp] theorem State.answered_totalCount (s : State) (a : Arg) (hit fault : Bool) (f : Frame) (b : Byte) : (s.answered a hit fault f b).totalCount = satAdd s.totalCount true := rfl
@[simp] theorem State.answered_faultCount (s : State) (a : Arg) (hit fault : Bool) (f : Frame) (b : Byte) : (s.answered a hit fault f b).faultCount = satAdd s.faultCount fault := rfl
@[simp] theorem State.answered_hitCount (s : State) (a : Arg) (hit fault : Bool) (f : Frame) (b : Byte) : (s.answered a hit fault f b).hitCount = satAdd s.hitCount hit := rfl
@[simp] theorem State.answered_halted (s : State) (a : Arg) (hit fault : Bool) (f : Frame) (b : Byte) : (s.answered a hit fault f b).halted = s.halted := rfl
@[simp] theorem State.answered_cause (s : State) (a : Arg) (hit fault : Bool) (f : Frame) (b : Byte) : (s.answered a hit fault f b).cause = s.cause := rfl
@[simp] theorem State.answered_config (s : State) (a : Arg) (hit fault : Bool) (f : Frame) (b : Byte) : (s.answered a hit fault f b).config = s.config := rfl
@[simp] theorem State.answered_rsp (s : State) (a : Arg) (hit fault : Bool) (f : Frame) (b : Byte) : (s.answered a hit fault f b).rsp = some (okResponse a hit fault f b) := rfl
@[simp] theorem State.answered_bus (s : State) (a : Arg) (hit fault : Bool) (f : Frame) (b : Byte) : (s.answered a hit fault f b).bus = s.bus := rfl
@[simp] theorem State.answered_bsReq (s : State) (a : Arg) (hit fault : Bool) (f : Frame) (b : Byte) : (s.answered a hit fault f b).bsReq = none := rfl
@[simp] theorem State.answered_inputs (s : State) (a : Arg) (hit fault : Bool) (f : Frame) (b : Byte) : (s.answered a hit fault f b).inputs = s.inputs := rfl
@[simp] theorem State.answered_bsAnswers (s : State) (a : Arg) (hit fault : Bool) (f : Frame) (b : Byte) : (s.answered a hit fault f b).bsAnswers = s.bsAnswers := rfl
@[simp] theorem State.answered_bs (s : State) (a : Arg) (hit fault : Bool) (f : Frame) (b : Byte) : (s.answered a hit fault f b).bs = s.bs := rfl

/-! ### restart -/

@[simp] theorem State.restart_tlb (s : State) (rest : List Input) : (s.restart rest).tlb = [] := rfl
@[simp] theorem State.restart_pt (s : State) (rest : List Input) : (s.restart rest).pt = Vector.replicate 256 none := rfl
@[simp] theorem State.restart_pm (s : State) (rest : List Input) : (s.restart rest).pm = [] := rfl
@[simp] theorem State.restart_nextFrame (s : State) (rest : List Input) : (s.restart rest).nextFrame = 0#9 := rfl
@[simp] theorem State.restart_totalCount (s : State) (rest : List Input) : (s.restart rest).totalCount = 0#32 := rfl
@[simp] theorem State.restart_faultCount (s : State) (rest : List Input) : (s.restart rest).faultCount = 0#32 := rfl
@[simp] theorem State.restart_hitCount (s : State) (rest : List Input) : (s.restart rest).hitCount = 0#32 := rfl
@[simp] theorem State.restart_halted (s : State) (rest : List Input) : (s.restart rest).halted = false := rfl
@[simp] theorem State.restart_cause (s : State) (rest : List Input) : (s.restart rest).cause = 0#3 := rfl
@[simp] theorem State.restart_config (s : State) (rest : List Input) : (s.restart rest).config = s.config := rfl
@[simp] theorem State.restart_rsp (s : State) (rest : List Input) : (s.restart rest).rsp = none := rfl
@[simp] theorem State.restart_bus (s : State) (rest : List Input) : (s.restart rest).bus = none := rfl
@[simp] theorem State.restart_bsReq (s : State) (rest : List Input) : (s.restart rest).bsReq = none := rfl
@[simp] theorem State.restart_inputs (s : State) (rest : List Input) : (s.restart rest).inputs = rest := rfl
@[simp] theorem State.restart_bsAnswers (s : State) (rest : List Input) : (s.restart rest).bsAnswers = s.bsAnswers := rfl
@[simp] theorem State.restart_bs (s : State) (rest : List Input) : (s.restart rest).bs = s.bs := rfl

end Sys2Proof.Machine
end

