-- ==== Sys2Proof/Laws/Ops.lean ====
section
/-! SUPPORT. One lemma per shared operation that says what it can do: the TLB, the page table, the store,
RDBYTE, SWAPIN, the counters. -/

namespace Sys2Proof.Machine

/-! ### Addresses -/

theorem physAddr_toNat (f : Frame) (o : Offset) : (physAddr f o).toNat = f.toNat * 256 + o.toNat := by
  have ho : o.toNat < 2 ^ 8 := o.isLt
  rw [physAddr, BitVec.toNat_append, ← Nat.shiftLeft_add_eq_or_of_lt ho, Nat.shiftLeft_eq]

theorem storeAddr_toNat (p : Page) (k : BitVec 8) : (storeAddr p k).toNat = p.toNat * 256 + k.toNat :=
  physAddr_toNat p k

/-! ### The TLB -/

@[simp] theorem tlbFind_nil (page : Page) : tlbFind [] page = none := rfl

theorem tlbFind_cons (e : TlbEntry) (tlb : List TlbEntry) (page : Page) :
    tlbFind (e :: tlb) page = if e.page = page then some e.frame else tlbFind tlb page := by
  by_cases h : e.page = page <;> simp [tlbFind, h]

theorem tlbFind_append (l m : List TlbEntry) (page : Page) :
    tlbFind (l ++ m) page = (tlbFind l page).or (tlbFind m page) := by
  simp only [tlbFind, List.find?_append]
  cases l.find? (fun e => e.page == page) <;> simp

/-- A lookup misses exactly when no resident entry has the page. -/
theorem tlbFind_eq_none_iff {tlb : List TlbEntry} {page : Page} :
    tlbFind tlb page = none ↔ ∀ e ∈ tlb, e.page ≠ page := by
  simp [tlbFind]

/-- What a lookup finds is resident. -/
theorem mem_of_tlbFind {tlb : List TlbEntry} {page : Page} {f : Frame} (h : tlbFind tlb page = some f) :
    { page := page, frame := f } ∈ tlb := by
  simp only [tlbFind, Option.map_eq_some_iff] at h
  obtain ⟨e, he, rfl⟩ := h
  have hp : e.page = page := by simpa using List.find?_some he
  have hm := List.mem_of_find?_eq_some he
  rw [← hp]
  exact hm

/-- With distinct pages, a lookup of a resident page finds its frame. -/
theorem tlbFind_of_mem {tlb : List TlbEntry} (hd : (tlb.map (fun e => e.page)).Nodup) {e : TlbEntry}
    (h : e ∈ tlb) : tlbFind tlb e.page = some e.frame := by
  induction tlb with
  | nil => simp at h
  | cons d tlb ih =>
    simp only [List.map_cons, List.nodup_cons] at hd
    rcases List.mem_cons.1 h with rfl | h
    · simp [tlbFind_cons]
    · have hne : d.page ≠ e.page := fun he => hd.1 (he ▸ List.mem_map_of_mem h)
      simp [tlbFind_cons, hne, ih hd.2 h]

/-- An insertion at or below capacity keeps the last `cap` entries. -/
theorem tlbAppend_eq_drop {cap : Nat} (hc : 1 ≤ cap) {tlb : List TlbEntry} (h : tlb.length ≤ cap)
    (e : TlbEntry) : tlbAppend cap tlb e = (tlb ++ [e]).drop (tlb.length + 1 - cap) := by
  unfold tlbAppend
  split
  · next hl =>
    have : tlb.length + 1 - cap = 1 := by omega
    rw [this]
    cases tlb with
    | nil => simp at hl; omega
    | cons d tlb => rfl
  · next hl =>
    have : tlb.length + 1 - cap = 0 := by omega
    simp [this]

theorem length_tlbAppend {cap : Nat} (hc : 1 ≤ cap) {tlb : List TlbEntry} (h : tlb.length ≤ cap)
    (e : TlbEntry) : (tlbAppend cap tlb e).length = min cap (tlb.length + 1) := by
  rw [tlbAppend_eq_drop hc h]
  simp only [List.length_drop, List.length_append, List.length_cons, List.length_nil]
  omega

/-- The occupancy never goes down. -/
theorem length_le_tlbAppend {cap : Nat} (hc : 1 ≤ cap) (tlb : List TlbEntry) (e : TlbEntry) :
    tlb.length ≤ (tlbAppend cap tlb e).length := by
  unfold tlbAppend
  split
  · simp only [List.length_append, List.length_tail, List.length_cons, List.length_nil]
    omega
  · simp

theorem mem_tlbAppend {cap : Nat} {tlb : List TlbEntry} {e d : TlbEntry} (h : d ∈ tlbAppend cap tlb e) :
    d ∈ tlb ∨ d = e := by
  unfold tlbAppend at h
  split at h
  · rcases List.mem_append.1 h with h | h
    · exact .inl (List.mem_of_mem_tail h)
    · exact .inr (by simpa using h)
  · simpa using h

/-! ### The page table -/

/-- PTMARK sets one entry and no other (42_page_table.md R143). -/
theorem ptLookup_ptMark (s : State) (p q : Page) (f : Frame) :
    (s.ptMark p f).ptLookup q = if q = p then some f else s.ptLookup q := by
  have hq : q.toNat < 256 := q.isLt
  unfold State.ptLookup State.ptMark
  by_cases h : q = p
  · subst h; simp
  · have : p.toNat ≠ q.toNat := fun hn => h (BitVec.eq_of_toNat_eq hn).symm
    simp [h, this]

/-- A lookup reads nothing but the table. -/
theorem ptLookup_congr {s t : State} (h : s.pt = t.pt) (p : Page) : s.ptLookup p = t.ptLookup p := by
  simp [State.ptLookup, h]

/-! ### The backing store -/

theorem storeByte_congr {s t : State} (h : s.bs = t.bs) (a : Addr16) : s.storeByte a = t.storeByte a := by
  simp [State.storeByte, h]

@[simp] theorem length_storePage (s : State) (p : Page) : (s.storePage p).length = 256 := by
  simp [State.storePage, Config.frameSize]

theorem getElem_storePage (s : State) (p : Page) (k : Offset) :
    (s.storePage p)[k.toNat]'(by simpa using k.isLt) = s.storeByte (storeAddr p k) := by
  simp [State.storePage, Config.frameSize]

/-! ### Physical memory -/

theorem pmByte_congr {s t : State} (h : s.pm = t.pm) (f : Frame) (o : Offset) :
    s.pmByte f o = t.pmByte f o := by simp [State.pmByte, h]

/-- A filled frame holds the page, every other frame is as before. -/
theorem pmByte_fillFrame (s : State) (p : Page) (f g : Frame) (o : Offset) :
    (s.fillFrame p f).pmByte g o = if g = f then some (s.storeByte (storeAddr p o)) else s.pmByte g o := by
  have ho : o.toNat < 256 := o.isLt
  simp only [State.pmByte, State.fillFrame_pm, physAddr_toNat, Config.frameSize]
  by_cases h : g = f
  · subst h
    have hk : o.toNat < (s.storePage p).length := by simpa using ho
    simp [readCell_writeBlock_inside _ hk, getElem_storePage]
  · have hn : g.toNat ≠ f.toNat := fun hn => h (BitVec.eq_of_toNat_eq hn)
    rw [if_neg h, readCell_writeBlock_outside]
    simp only [length_storePage]
    omega

/-- Everything RDBYTE can find (43_physical_memory.md R156, R157). -/
theorem readByte_cases (s : State) (f : Frame) (o : Offset) :
    (s.config.numFrames ≤ f.toNat ∧ s.readByte f o = .outOfRange) ∨
    (f.toNat < s.config.numFrames ∧ ∃ b, s.pmByte f o = some b ∧ s.readByte f o = .value b) ∨
    (f.toNat < s.config.numFrames ∧ s.pmByte f o = none ∧ s.readByte f o = .unwritten (physAddr f o)) := by
  unfold State.readByte
  by_cases h : s.config.numFrames ≤ f.toNat
  · exact .inl ⟨h, by simp [h]⟩
  · cases hb : s.pmByte f o with
    | none => exact .inr (.inr ⟨by omega, rfl, by simp [h]⟩)
    | some b => exact .inr (.inl ⟨by omega, b, rfl, by simp [h]⟩)

theorem readByte_value {s : State} {f : Frame} {o : Offset} {b : Byte}
    (hf : f.toNat < s.config.numFrames) (hb : s.pmByte f o = some b) : s.readByte f o = .value b := by
  simp [State.readByte, hb, Nat.not_le.2 hf]

theorem readByte_outOfRange {s : State} {f : Frame} (hf : s.config.numFrames ≤ f.toNat) (o : Offset) :
    s.readByte f o = .outOfRange := by
  simp [State.readByte, hf]

/-! ### The fault service -/

/-- Everything SWAPIN can come to (43_physical_memory.md R151, R154, R155). -/
theorem swapIn_cases (page : Page) (s : State) :
    (s.bsAnswers = [] ∧ s.swapIn page = .waiting) ∨
    (∃ rest, s.bsAnswers = .err :: rest ∧ s.swapIn page = .failed .ioError (s.takeAnswer rest)) ∨
    (∃ rest, s.bsAnswers = .ok :: rest ∧ s.config.numFrames ≤ s.nextFrame.toNat ∧
      s.swapIn page = .failed .capacityExhausted (s.takeAnswer rest)) ∨
    (∃ rest, s.bsAnswers = .ok :: rest ∧ s.nextFrame.toNat < s.config.numFrames ∧
      s.swapIn page = .loaded (s.nextFrame.setWidth 8) (s.swapped page rest)) := by
  unfold State.swapIn
  rcases h : s.bsAnswers with _ | ⟨_ | _, rest⟩
  · exact .inl ⟨rfl, rfl⟩
  · by_cases hn : s.config.numFrames ≤ s.nextFrame.toNat
    · exact .inr (.inr (.inl ⟨rest, rfl, hn, by simp [hn]⟩))
    · exact .inr (.inr (.inr ⟨rest, rfl, by omega, by simp [hn]; rfl⟩))
  · exact .inr (.inl ⟨rest, rfl, rfl⟩)

/-- The next frame fits a frame index while one is free. -/
theorem nextFrame_setWidth_toNat {s : State} (h : s.nextFrame.toNat < s.config.numFrames) :
    (s.nextFrame.setWidth 8 : Frame).toNat = s.nextFrame.toNat := by
  have := s.config.numFrames_le
  rw [BitVec.toNat_setWidth]
  omega

/-- The free-frame counter does not wrap (00_scope.md R13 (d)). -/
theorem nextFrame_succ_toNat {s : State} (h : s.nextFrame.toNat < s.config.numFrames) :
    (s.nextFrame + 1#9).toNat = s.nextFrame.toNat + 1 := by
  have := s.config.numFrames_le
  rw [BitVec.toNat_add]
  simp only [BitVec.toNat_ofNat]
  omega

/-! ### The error entry -/

/-- The first error of the run enters (60_exceptions.md R207). -/
theorem State.errorEntry_of_running {s : State} (h : s.halted = false) (e : Error) :
    s.errorEntry e = { s with halted := true, cause := causeCode e } := by
  simp [State.errorEntry, h]

/-- A halted block makes no further entry (60_exceptions.md R208). -/
theorem State.errorEntry_of_halted {s : State} (h : s.halted = true) (e : Error) : s.errorEntry e = s := by
  cases s
  simp_all [State.errorEntry]

/-! ### Counters -/

/-- A counter saturates (10_state.md R33). -/
theorem satAdd_toNat (c : Count) (event : Bool) :
    (satAdd c event).toNat = min (c.toNat + event.toNat) countMax := by
  have := c.isLt
  unfold satAdd countMax
  cases event
  · simp only [Bool.false_eq_true, if_false, Bool.toNat_false]
    omega
  · simp only [if_true, BitVec.toNat_ofNat, Bool.toNat_true]
    omega

@[simp] theorem satAdd_false (c : Count) : satAdd c false = c := rfl

end Sys2Proof.Machine
end

