-- ==== Sys2Proof/Laws/Exec.lean ====
section
/-! SUPPORT. What a meaning can do: the leaves of XLATE, and the parts of the state no operation writes. -/

namespace Sys2Proof.Machine

/-- Everything steps 5 to 7 can come to. -/
theorem finishXlate_cases (addr : Arg) (hit fault : Bool) (frame : Frame) (s : State) :
    (s.config.numFrames ≤ frame.toNat ∧
      finishXlate addr hit fault frame s = .next (s.failXlate addr .invalidAddress)) ∨
    (frame.toNat < s.config.numFrames ∧ ∃ b, s.pmByte frame (offsetOf addr) = some b ∧
      finishXlate addr hit fault frame s = .next (s.answered addr hit fault frame b)) ∨
    (frame.toNat < s.config.numFrames ∧ s.pmByte frame (offsetOf addr) = none ∧
      finishXlate addr hit fault frame s = .fault (.unwrittenByte (physAddr frame (offsetOf addr)))) := by
  unfold finishXlate
  rcases readByte_cases s frame (offsetOf addr) with ⟨h, hr⟩ | ⟨h, b, hb, hr⟩ | ⟨h, hb, hr⟩
  · exact .inl ⟨h, by rw [hr]⟩
  · exact .inr (.inl ⟨h, b, hb, by rw [hr]; rfl⟩)
  · exact .inr (.inr ⟨h, hb, by rw [hr]⟩)

theorem finishXlate_value {addr : Arg} {hit fault : Bool} {frame : Frame} {s : State} {b : Byte}
    (hf : frame.toNat < s.config.numFrames) (hb : s.pmByte frame (offsetOf addr) = some b) :
    finishXlate addr hit fault frame s = .next (s.answered addr hit fault frame b) := by
  simp [finishXlate, readByte_value hf hb, State.answered]

/-- The decision tree of XLATE (44_translator.md R172), with the fault service opened. -/
theorem execXlate_cases (addr : Arg) (s : State) :
    (s.halted = true ∧ execXlate addr s = .next (s.respond (Response.bare .halted addr))) ∨
    (s.halted = false ∧ ∃ f, s.tlbLookup (pageOf addr) = some f ∧
      execXlate addr s = finishXlate addr true false f s) ∨
    (s.halted = false ∧ s.tlbLookup (pageOf addr) = none ∧ ∃ f, s.ptLookup (pageOf addr) = some f ∧
      execXlate addr s = finishXlate addr false false f (s.tlbInsert (pageOf addr) f)) ∨
    (s.halted = false ∧ s.tlbLookup (pageOf addr) = none ∧ s.ptLookup (pageOf addr) = none ∧
      s.bsAnswers = [] ∧ execXlate addr s = .next (s.awaitStore (pageOf addr))) ∨
    (s.halted = false ∧ s.tlbLookup (pageOf addr) = none ∧ s.ptLookup (pageOf addr) = none ∧
      ∃ rest, s.bsAnswers = .err :: rest ∧
        execXlate addr s = .next ((s.takeAnswer rest).failXlate addr .ioError)) ∨
    (s.halted = false ∧ s.tlbLookup (pageOf addr) = none ∧ s.ptLookup (pageOf addr) = none ∧
      ∃ rest, s.bsAnswers = .ok :: rest ∧ s.config.numFrames ≤ s.nextFrame.toNat ∧
        execXlate addr s = .next ((s.takeAnswer rest).failXlate addr .capacityExhausted)) ∨
    (s.halted = false ∧ s.tlbLookup (pageOf addr) = none ∧ s.ptLookup (pageOf addr) = none ∧
      ∃ rest, s.bsAnswers = .ok :: rest ∧ s.nextFrame.toNat < s.config.numFrames ∧
        execXlate addr s = finishXlate addr false true (s.nextFrame.setWidth 8)
          ((s.swapped (pageOf addr) rest).tlbInsert (pageOf addr) (s.nextFrame.setWidth 8))) := by
  unfold execXlate
  cases hh : s.halted with
  | true => exact .inl ⟨rfl, by simp⟩
  | false =>
    cases ht : s.tlbLookup (pageOf addr) with
    | some f => exact .inr (.inl ⟨rfl, f, rfl, by simp⟩)
    | none =>
      cases hp : s.ptLookup (pageOf addr) with
      | some f => exact .inr (.inr (.inl ⟨rfl, rfl, f, rfl, by simp⟩))
      | none =>
        rcases swapIn_cases (pageOf addr) s with ⟨ha, hs⟩ | ⟨rest, ha, hs⟩ | ⟨rest, ha, hn, hs⟩ | ⟨rest, ha, hn, hs⟩
        · exact .inr (.inr (.inr (.inl ⟨rfl, rfl, rfl, ha, by simp [hs]⟩)))
        · exact .inr (.inr (.inr (.inr (.inl ⟨rfl, rfl, rfl, rest, ha, by simp [hs]⟩))))
        · exact .inr (.inr (.inr (.inr (.inr (.inl ⟨rfl, rfl, rfl, rest, ha, hn, by simp [hs]⟩)))))
        · exact .inr (.inr (.inr (.inr (.inr (.inr ⟨rfl, rfl, rfl, rest, ha, hn, by simp [hs]⟩)))))

/-- The hypotheses under which XLATE goes to the fault service. -/
theorem execXlate_of_pageFault {addr : Arg} {s : State} (hh : s.halted = false)
    (ht : s.tlbLookup (pageOf addr) = none) (hp : s.ptLookup (pageOf addr) = none) :
    execXlate addr s =
      match s.swapIn (pageOf addr) with
      | .waiting => .next (s.awaitStore (pageOf addr))
      | .failed e t => .next (t.failXlate addr e)
      | .loaded frame t => finishXlate addr false true frame (t.tlbInsert (pageOf addr) frame) := by
  unfold execXlate
  rw [if_neg (by simp [hh]), ht, hp] <;> rfl

/-- The byte of a freshly filled frame: the fault service never leaves XLATE without a byte. -/
theorem pmByte_swapped (s : State) (p : Page) (rest : List BsAnswer) (g : Frame) (o : Offset) :
    (s.swapped p rest).pmByte g o =
      if g = s.nextFrame.setWidth 8 then some (s.storeByte (storeAddr p o)) else s.pmByte g o :=
  pmByte_fillFrame s p (s.nextFrame.setWidth 8) g o

theorem ptLookup_swapped (s : State) (p : Page) (rest : List BsAnswer) (q : Page) :
    (s.swapped p rest).ptLookup q = if q = p then some (s.nextFrame.setWidth 8) else s.ptLookup q :=
  ptLookup_ptMark s p q (s.nextFrame.setWidth 8)

/-- RDCSR drives the response and nothing else (44_translator.md R180). -/
theorem execRdcsr_cases (arg : Arg) (s : State) :
    (∃ v, s.csrRead (csrOf arg) = some v ∧
      execRdcsr arg s = .next (s.respond { Response.bare .ok arg with data := v })) ∨
    (s.csrRead (csrOf arg) = none ∧ execRdcsr arg s = .next (s.answerIllegal arg)) := by
  unfold execRdcsr
  cases h : s.csrRead (csrOf arg) with
  | some v => exact .inl ⟨v, rfl, rfl⟩
  | none => exact .inr ⟨rfl, rfl⟩

end Sys2Proof.Machine
end

