-- ==== Sys2Proof/Laws/PerInstr.lean ====
section
/-! SUPPORT. Families of lemmas with one lemma per constructor of Instr. -/

namespace Sys2Proof.Laws.EncodesOpcode

/-- The encoder puts an operation's code in `CMD[35:32]` and its operand in `CMD[31:0]`
(30_encoding.md R81). -/
def Statement (i : Instr) : Prop := opOf (encode i) = i.opcode ∧ argOf (encode i) = i.operand

theorem fields_of_append (op : Opcode) (arg : Arg) :
    opOf (op ++ arg : BitVec 36) = op ∧ argOf (op ++ arg : BitVec 36) = arg := by
  constructor
  · exact BitVec.extractLsb'_append_eq_left
  · exact BitVec.extractLsb'_append_eq_right

theorem xlate (addr : Arg) : Statement (.xlate addr) := fields_of_append _ _
theorem rdcsr (arg : Arg) : Statement (.rdcsr arg) := fields_of_append _ _
theorem decode (addr : Arg) : Statement (.decode addr) := fields_of_append _ _
theorem tlblkup (page : Page) : Statement (.tlblkup page) := fields_of_append _ _
theorem tlbins (page : Page) (frame : Frame) : Statement (.tlbins page frame) := fields_of_append _ _
theorem ptlkup (page : Page) : Statement (.ptlkup page) := fields_of_append _ _
theorem ptmark (page : Page) (frame : Frame) : Statement (.ptmark page frame) := fields_of_append _ _
theorem swapin (page : Page) : Statement (.swapin page) := fields_of_append _ _
theorem rdbyte (frame : Frame) (offset : Offset) : Statement (.rdbyte frame offset) :=
  fields_of_append _ _

end Sys2Proof.Laws.EncodesOpcode
end

