-- ==== Sys2Proof/Laws/Step.lean ====
section
/-! SUPPORT. What a step can do: one case per kind of input. -/

namespace Sys2Proof.Machine

@[simp] theorem State.retire_of_waiting {s : State} (h : s.bsReq.isSome = true) (rest : List Input) :
    s.retire rest = s := by
  simp [State.retire, h]

@[simp] theorem State.retire_of_answered {s : State} (h : s.bsReq = none) (rest : List Input) :
    s.retire rest = { s with inputs := rest } := by
  simp [State.retire, h]

/-- Retiring changes at most the inputs. -/
theorem State.retire_cases (s : State) (rest : List Input) :
    s.retire rest = s ∨ s.retire rest = { s with inputs := rest } := by
  unfold State.retire
  split
  · exact .inl rfl
  · exact .inr rfl

/-- What the block can find at its inputs. -/
theorem State.accept_cases (s : State) :
    (s.inputs = [] ∧ s.accept = .idle) ∨
    (∃ rest, s.accept = .restart rest ∧ (s.inputs = .rst :: rest ∨
      (∃ c, s.inputs = c :: .rst :: rest ∧ s.bsReq.isSome = true ∧ s.bsAnswers = []))) ∨
    (∃ w rest, s.inputs = .host w :: rest ∧ s.abandoned rest = false ∧ s.accept = acceptHost w rest) ∨
    (∃ w rest, s.inputs = .bus w :: rest ∧ s.abandoned rest = false ∧ s.accept = acceptBus w rest) := by
  unfold State.accept
  have key : ∀ rest, s.abandoned rest = true →
      s.bsReq.isSome = true ∧ s.bsAnswers = [] ∧ ∃ tl, rest = .rst :: tl := by
    intro rest h
    cases rest with
    | nil => simp [State.abandoned] at h
    | cons c tl =>
      simp only [State.abandoned, Bool.and_eq_true, List.isEmpty_iff, List.head?_cons,
        Option.some.injEq, decide_eq_true_eq] at h
      exact ⟨h.1.1, h.1.2, tl, by rw [h.2]⟩
  rcases hi : s.inputs with _ | ⟨_ | w | w, rest⟩
  · exact .inl ⟨rfl, rfl⟩
  · exact .inr (.inl ⟨rest, rfl, .inl rfl⟩)
  · cases ha : s.abandoned rest with
    | true =>
      obtain ⟨h1, h2, tl, rfl⟩ := key rest ha
      exact .inr (.inl ⟨tl, by simp [ha], .inr ⟨_, rfl, h1, h2⟩⟩)
    | false => exact .inr (.inr (.inl ⟨w, rest, rfl, ha, by simp [ha]⟩))
  · cases ha : s.abandoned rest with
    | true =>
      obtain ⟨h1, h2, tl, rfl⟩ := key rest ha
      exact .inr (.inl ⟨tl, by simp [ha], .inr ⟨_, rfl, h1, h2⟩⟩)
    | false => exact .inr (.inr (.inr ⟨w, rest, rfl, ha, by simp [ha]⟩))

theorem State.accept_host {s : State} {w : Word} {rest : List Input} (h : s.inputs = .host w :: rest)
    (ha : s.abandoned rest = false) : s.accept = acceptHost w rest := by
  simp [State.accept, h, ha]

theorem State.accept_bus {s : State} {w : Word} {rest : List Input} (h : s.inputs = .bus w :: rest)
    (ha : s.abandoned rest = false) : s.accept = acceptBus w rest := by
  simp [State.accept, h, ha]

/-- A block that waits for nothing abandons nothing. -/
theorem State.abandoned_of_idle {s : State} (h : s.bsReq = none) (rest : List Input) :
    s.abandoned rest = false := by
  simp [State.abandoned, h]

/-- An operation of the host is XLATE or RDCSR (30_encoding.md R87). -/
theorem hostDecode_ok_cases {w : Word} {i : Instr} (h : hostDecode w = .ok i) :
    (∃ addr, i = .xlate addr) ∨ ∃ arg, i = .rdcsr arg := by
  unfold hostDecode at h
  split at h
  · next j _ =>
    split at h
    · next hj =>
      simp only [Decoded.ok.injEq] at h
      subst h
      cases j <;> simp [Instr.hostIssuable] at hj ⊢
    · simp at h
  · simp at h

/-- An operation on the bus is a micro-operation (30_encoding.md R84). -/
theorem busDecode_ok {w : Word} {i : Instr} (h : busDecode w = .ok i) :
    decode w = .ok i ∧ i.hostIssuable = false := by
  unfold busDecode at h
  split at h
  · next j hj =>
    split at h
    · simp at h
    · next hi =>
      simp only [Decoded.ok.injEq] at h
      subst h
      exact ⟨hj, by simpa using hi⟩
  · simp at h

/-- A step by the input it takes. -/
theorem step_cases (s : State) :
    (s.inputs = [] ∧ step s = .next s) ∨
    (∃ rest, s.accept = .restart rest ∧ step s = .next (s.restart rest)) ∨
    (∃ w rest r, s.inputs = .host w :: rest ∧ hostDecode w = .reject r ∧
      step s = .next ((s.answerIllegal (argOf w)).retire rest)) ∨
    (∃ w rest addr, s.inputs = .host w :: rest ∧ hostDecode w = .ok (.xlate addr) ∧
      step s = retireOutcome rest (execXlate addr s)) ∨
    (∃ w rest arg, s.inputs = .host w :: rest ∧ hostDecode w = .ok (.rdcsr arg) ∧
      step s = retireOutcome rest (execRdcsr arg s)) ∨
    (∃ w rest i, s.inputs = .bus w :: rest ∧ busDecode w = .ok i ∧
      step s = retireOutcome rest (exec i s)) ∨
    (∃ w rest r, s.inputs = .bus w :: rest ∧ busDecode w = .reject r ∧
      step s = .refused (.notABusOperation (opOf w))) := by
  rcases s.accept_cases with ⟨hi, ha⟩ | ⟨rest, ha, -⟩ | ⟨w, rest, hi, -, ha⟩ | ⟨w, rest, hi, -, ha⟩
  · exact .inl ⟨hi, by simp [step, ha]⟩
  · exact .inr (.inl ⟨rest, ha, by simp [step, ha]⟩)
  · cases hd : hostDecode w with
    | reject r => exact .inr (.inr (.inl ⟨w, rest, r, hi, hd, by simp [step, ha, acceptHost, hd]⟩))
    | ok i =>
      rcases hostDecode_ok_cases hd with ⟨addr, rfl⟩ | ⟨arg, rfl⟩
      · exact .inr (.inr (.inr (.inl ⟨w, rest, addr, hi, hd, by simp [step, ha, acceptHost, hd, exec]⟩)))
      · exact .inr (.inr (.inr (.inr (.inl ⟨w, rest, arg, hi, hd, by
          simp [step, ha, acceptHost, hd, exec]⟩))))
  · cases hd : busDecode w with
    | reject r => exact .inr (.inr (.inr (.inr (.inr (.inr ⟨w, rest, r, hi, hd, by
        simp [step, ha, acceptBus, hd]⟩)))))
    | ok i => exact .inr (.inr (.inr (.inr (.inr (.inl ⟨w, rest, i, hi, hd, by
        simp [step, ha, acceptBus, hd]⟩)))))

end Sys2Proof.Machine
end

