-- ==== Sys2Proof/Tests/Slice0.lean ====
section
/-! SUPPORT. Tests and witnesses. Every expected value is taken from spec/95_test_vectors.md, as the docstring
names it. A witness shows a state and operands that meet all hypotheses of an obligation together. -/

namespace Sys2Proof.Tests

open Sys2Proof Sys2Proof.Machine

/-! ### Helpers -/

/-- The page `p` of the test store, `TS[p * 256 + k] = (31 * p + k) mod 256` (section 1). -/
def tsPage (p : Nat) : List Byte := (List.range 256).map (fun k => BitVec.ofNat 8 (31 * p + k))

/-- Reset with page 1 of the test store listed and these answers to come. -/
def fresh (answers : List BsAnswer) : State :=
  { State.reset with bs := cellsFrom 256 (tsPage 1), bsAnswers := answers }

/-- The state after row 2 of program P9 and of SWAPIN step 1 of section 3.5: page 1 in frame 0. -/
def loaded : State :=
  { State.reset with
    tlb := [{ page := 1#8, frame := 0#8 }]
    pt := State.reset.pt.set 1 (some 0#8)
    pm := cellsFrom 0 (tsPage 1)
    nextFrame := 1#9, totalCount := 1#32, faultCount := 1#32
    bs := cellsFrom 256 (tsPage 1) }

/-- One frame and one TLB entry. -/
def smallConfig : Config := { tlbCap := 1, numFrames := 1 }

/-- The entry of page `p` in frame `p`. -/
def entryOf (p : Nat) : TlbEntry := { page := BitVec.ofNat 8 p, frame := BitVec.ofNat 8 p }

/-- The outcome is a next state with a property. -/
def holds (o : Host.Outcome State Fault Refusal) (P : State → Bool) : Bool :=
  match o with
  | .next t => P t
  | .fault _ => false
  | .refused _ => false

theorem next_of_holds {o : Host.Outcome State Fault Refusal} {P : State → Bool} (h : holds o P = true) :
    ∃ t, o = .next t ∧ P t = true := by
  cases o with
  | next t => exact ⟨t, rfl, h⟩
  | fault r => simp [holds] at h
  | refused r => simp [holds] at h

/-- The status and event flags of the last response. -/
def rspEvents (s : State) : Option (Status × Bool × Bool) := s.rsp.map (fun r => (r.status, r.hit, r.fault))

/-! ### WellFormed -/

theorem test_rdcsr_seven_refused : (Instr.rdcsr 7#32).wellFormed = false := by decide
theorem test_rdcsr_ignored_bits_seven_refused : (Instr.rdcsr 0xABCDEF17#32).wellFormed = false := by decide
theorem test_rdcsr_six_accepted : (Instr.rdcsr 6#32).wellFormed = true := by decide

/-! ### Decode (95_test_vectors.md section 3.1, 30_encoding.md R85) -/

theorem test_decode_xlate : decode 0x1FFFFFFFF#36 = .ok (.xlate 0xFFFFFFFF#32) := by decide
theorem test_decode_rdcsr : decode 0x2FFFFFFF1#36 = .ok (.rdcsr 0xFFFFFFF1#32) := by decide
theorem test_decode_rdcsr_reserved : hostDecode 0x2ABCDEF17#36 = .reject (.reservedCsr 7#4) := by decide
theorem test_decode_decode : busDecode 0x400001234#36 = .ok (.decode 0x1234#32) := by decide
theorem test_decode_tlblkup : busDecode 0x500000001#36 = .ok (.tlblkup 1#8) := by decide
theorem test_decode_tlbins : busDecode 0x600000102#36 = .ok (.tlbins 1#8 2#8) := by decide
theorem test_decode_ptlkup : busDecode 0x7000000FF#36 = .ok (.ptlkup 255#8) := by decide
theorem test_decode_ptmark : busDecode 0x80000FF03#36 = .ok (.ptmark 255#8 3#8) := by decide
theorem test_decode_swapin : busDecode 0x900000005#36 = .ok (.swapin 5#8) := by decide
theorem test_decode_rdbyte : busDecode 0xA000001FF#36 = .ok (.rdbyte 1#8 255#8) := by decide
theorem test_decode_zero : hostDecode 0#36 = .reject (.reservedOp 0#4) := by decide
theorem test_decode_three : hostDecode 0x300000000#36 = .reject (.reservedOp 3#4) := by decide
theorem test_decode_eleven : hostDecode 0xB00000000#36 = .reject (.reservedOp 11#4) := by decide
theorem test_decode_ones : hostDecode 0xFFFFFFFFF#36 = .reject (.reservedOp 15#4) := by decide
theorem test_decode_internal_on_host : hostDecode 0x500000001#36 = .reject (.internalOp 5#4) := by decide
theorem test_decode_host_on_bus : busDecode 0x100000001#36 = .reject (.hostOp 1#4) := by decide
theorem test_encode_ptmark : encode (.ptmark 255#8 3#8) = 0x80000FF03#36 := by decide
theorem test_table_word : decodeTableWord 40 0xA000001FF = some (.rdbyte 1#8 255#8) := by decide
theorem test_fetch_word :
    holds (step (State.reset.withFetchWord 40 0x400001234)) (fun t =>
      decide (t.bus = some (.decoded 18#8 52#8) ∧ t.inputs = [])) = true := by decide

/-! ### Single steps -/

/-- P9 row 2. -/
theorem test_xlate_page_fault :
    holds (exec (.xlate 258#32) (fresh [.ok])) (fun t =>
      decide (t.tlb = loaded.tlb ∧ t.pt = loaded.pt ∧ t.pm = loaded.pm ∧ t.nextFrame = 1#9 ∧
        t.faultCount = 1#32 ∧ t.rsp.map (fun r => (r.pa, r.value)) = some (2#16, 0x21#8))) = true := by
  decide +kernel
/-- P9 row 6. -/
theorem test_xlate_tlb_hit :
    holds (exec (.xlate 259#32) loaded) (fun t =>
      decide (rspEvents t = some (.ok, true, false) ∧ t.totalCount = 2#32 ∧ t.hitCount = 1#32 ∧
        t.rsp.map (fun r => (r.pa, r.value)) = some (3#16, 0x22#8))) = true := by decide
/-- P9 row 12. -/
theorem test_rdcsr_status :
    holds (exec (.rdcsr 0#32) { loaded with halted := true, cause := 1#3 }) (fun t =>
      decide (t.rsp.map (fun r => r.data) = some 3#32)) = true := by decide
/-- P9 row 1. -/
theorem test_rdcsr_config :
    holds (exec (.rdcsr 6#32) State.reset) (fun t =>
      decide (t.rsp.map (fun r => r.data) = some 0x00010010#32)) = true := by decide
/-- Section 3.2, address 305419896. -/
theorem test_exec_decode :
    holds (exec (.decode 305419896#32) State.reset) (fun t =>
      decide (t.bus = some (.decoded 86#8 120#8))) = true := by decide
/-- V3.5: the oldest match. -/
theorem test_tlblkup_oldest :
    holds (exec (.tlblkup 5#8) { State.reset with tlb := [⟨5#8, 1#8⟩, ⟨7#8, 2#8⟩, ⟨5#8, 9#8⟩] }) (fun t =>
      decide (t.bus = some (.tlbFrame (some 1#8)))) = true := by decide
/-- V3.2 step 7: a frame is no page. -/
theorem test_tlblkup_frame_is_no_page :
    holds (exec (.tlblkup 1#8) { State.reset with tlb := [⟨7#8, 0#8⟩, ⟨0#8, 1#8⟩] }) (fun t =>
      decide (t.bus = some (.tlbFrame none))) = true := by decide
/-- V3.3, insertion 17. -/
theorem test_tlbins_evicts_oldest :
    holds (exec (.tlbins 116#8 116#8) { State.reset with tlb := (List.range' 100 16).map entryOf }) (fun t =>
      decide (t.tlb = (List.range' 101 16).map entryOf)) = true := by decide
/-- V3.5: no search for the page. -/
theorem test_tlbins_duplicate :
    holds (exec (.tlbins 5#8 9#8) { State.reset with tlb := [⟨5#8, 1#8⟩, ⟨7#8, 2#8⟩] }) (fun t =>
      decide (t.tlb = [⟨5#8, 1#8⟩, ⟨7#8, 2#8⟩, ⟨5#8, 9#8⟩])) = true := by decide
/-- Section 3.4 step 4. -/
theorem test_ptlkup_valid :
    holds (exec (.ptlkup 1#8) loaded) (fun t => decide (t.bus = some (.ptEntry (some 0#8)))) = true := by
  decide
/-- Section 3.4 step 5: frame 0 in use says nothing about page 0. -/
theorem test_ptlkup_invalid :
    holds (exec (.ptlkup 0#8) loaded) (fun t => decide (t.bus = some (.ptEntry none))) = true := by decide
/-- Section 3.4 step 6. -/
theorem test_ptmark :
    holds (exec (.ptmark 255#8 1#8) loaded) (fun t =>
      decide (t.pt[255] = some 1#8 ∧ t.pt[1] = some 0#8 ∧ t.pt[0] = none)) = true := by decide
/-- Section 3.5 step 1. -/
theorem test_swapin :
    holds (exec (.swapin 1#8) (fresh [.ok])) (fun t =>
      decide (t.bus = some (.loaded 0#8) ∧ t.pm = loaded.pm ∧ t.pt = loaded.pt ∧ t.nextFrame = 1#9)) =
      true := by decide +kernel
/-- Section 3.5 step 10: the store is read before the capacity is checked. -/
theorem test_swapin_error_first :
    holds (exec (.swapin 2#8) { loaded with config := smallConfig, bsAnswers := [.err] }) (fun t =>
      decide (t.bus = some (.raised .ioError) ∧ t.cause = 1#3 ∧ t.nextFrame = 1#9)) = true := by decide
/-- Section 3.5 step 4. -/
theorem test_rdbyte_wraps :
    holds (exec (.rdbyte 0#8 225#8) loaded) (fun t => decide (t.bus = some (.byte 0#8))) = true := by decide
/-- Section 3.5 step 11, with one frame. -/
theorem test_rdbyte_out_of_range :
    holds (exec (.rdbyte 1#8 0#8) { loaded with config := smallConfig }) (fun t =>
      decide (t.bus = some (.raised .invalidAddress) ∧ t.halted = true ∧ t.cause = 3#3)) = true := by decide
/-- Section 3.5 step 6, the signed reading. -/
theorem test_signed_byte : signedByte 0xE1#8 = -31 := by decide
/-- V3.6. -/
theorem test_ring_after_seventeen :
    ((List.range' 100 17).foldl (fun r p => ringInsert (entryOf p) r)
      (ringReset (Vector.replicate 16 (entryOf 0)))).head = 1#4 := by decide

/-! ### A well-formed state that is not reset -/

theorem loaded_ptLookup (p : Page) : loaded.ptLookup p = if p = 1#8 then some 0#8 else none := by
  have h : loaded.ptLookup p = (State.reset.ptMark 1#8 0#8).ptLookup p := rfl
  rw [h, ptLookup_ptMark]
  simp [State.ptLookup, State.reset]

theorem loaded_pmByte (k : Offset) : loaded.pmByte 0#8 k = some (loaded.storeByte (storeAddr 1#8 k)) := by
  have hk : k.toNat < (tsPage 1).length := by simpa [tsPage] using k.isLt
  have h1 : readCell (cellsFrom 0 (tsPage 1)) (0 + k.toNat) = some (tsPage 1)[k.toNat] :=
    readCell_cellsFrom hk
  have h2 : readCell (cellsFrom 256 (tsPage 1)) (256 + k.toNat) = some (tsPage 1)[k.toNat] :=
    readCell_cellsFrom hk
  rw [Nat.zero_add] at h1
  have e1 : loaded.pmByte 0#8 k = readCell (cellsFrom 0 (tsPage 1)) (physAddr 0#8 k).toNat := rfl
  have e2 : loaded.storeByte (storeAddr 1#8 k) =
      (readCell (cellsFrom 256 (tsPage 1)) (storeAddr 1#8 k).toNat).getD
        (Config.storeByte (storeAddr 1#8 k).toNat) := rfl
  rw [e1, e2, physAddr_toNat, storeAddr_toNat]
  have z0 : (0#8).toNat * 256 + k.toNat = k.toNat := by simp
  have z1 : (1#8).toNat * 256 + k.toNat = 256 + k.toNat := by simp
  rw [z0, z1, h1, h2, Option.getD_some]

theorem loaded_memory : memoryWf loaded.pm = true ∧ ∀ c ∈ loaded.pm, c.1 < 256 := by
  refine ⟨?_, fun c hc => ?_⟩
  · exact decide_eq_true (cellsFrom_pairwise (tsPage 1) 0)
  · have h := (mem_cellsFrom_le (bytes := tsPage 1) (base := 0) hc).2
    have hl : (tsPage 1).length = 256 := by simp [tsPage]
    omega

/-- A state with the table and the memory of `loaded` is well formed when its TLB, its counters and its
halt condition are. -/
theorem inv_of_loaded {s : State} (hpt : s.pt = loaded.pt) (hpm : s.pm = loaded.pm) (hbs : s.bs = loaded.bs)
    (hn : s.nextFrame = 1#9) (ht : s.tlb = [] ∨ s.tlb = loaded.tlb) (hc : CountInv s) (hh : HaltInv s)
    (hd : HostDriven s) : Inv s := by
  have pl : ∀ p, s.ptLookup p = if p = 1#8 then some 0#8 else none := fun p => by
    rw [ptLookup_congr hpt, loaded_ptLookup]
  have cap := s.config.tlbCap_pos
  have frames := s.config.numFrames_pos
  have hn1 : s.nextFrame.toNat = 1 := by rw [hn]; rfl
  refine ⟨⟨?_, ?_, ?_⟩, ⟨?_, ?_, ?_⟩, ⟨?_, ?_, ?_, ?_⟩, hc, hh, hd⟩
  · rcases ht with h | h <;> rw [h]
    · exact Nat.zero_le _
    · exact cap
  · rcases ht with h | h <;> rw [h] <;> decide
  · intro e he
    rcases ht with h | h <;> rw [h] at he
    · simp at he
    · have he : e = { page := 1#8, frame := 0#8 } := by simpa [loaded] using he
      subst he
      rw [pl]
      rfl
  · intro p f h
    rw [pl] at h
    split at h
    · cases h
      rw [hn1]
      decide
    · cases h
  · intro p q f h1 h2
    rw [pl] at h1 h2
    split at h1 <;> split at h2 <;> simp_all
  · rw [hpt, hn1]
    decide +kernel
  · rw [hpm]
    exact loaded_memory.1
  · intro c h
    rw [hpm] at h
    have := loaded_memory.2 c h
    simpa [hn1, Config.frameSize] using this
  · omega
  · intro p f h k
    rw [pl] at h
    split at h
    · next hp =>
      cases h
      rw [hp, pmByte_congr hpm, storeByte_congr hbs]
      exact loaded_pmByte k
    · cases h

theorem loaded_counts : CountInv loaded := by
  refine ⟨by decide, by decide, ?_, by decide, ?_⟩ <;> intro _ <;> decide

/-- `loaded` with any inputs of the host and any answers. -/
def loadedWith (inputs : List Input) (answers : List BsAnswer) : State :=
  { loaded with inputs := inputs, bsAnswers := answers }

theorem loadedWith_inv {inputs : List Input} (answers : List BsAnswer) (h : ∀ w, Input.bus w ∉ inputs) :
    Inv (loadedWith inputs answers) := by
  refine inv_of_loaded rfl rfl rfl rfl (.inr rfl) ?_ ?_ h
  · exact ⟨loaded_counts.hit_le, loaded_counts.fault_le, loaded_counts.sum_le, loaded_counts.fault_eq,
      loaded_counts.occupancy⟩
  · exact ⟨fun _ => rfl, fun h => by cases h⟩

/-- `loaded` with one frame and one TLB entry, and nothing left to allocate. -/
def loadedSmall (inputs : List Input) (answers : List BsAnswer) : State :=
  { loaded with config := smallConfig, inputs := inputs, bsAnswers := answers }

theorem loadedSmall_inv {inputs : List Input} (answers : List BsAnswer) (h : ∀ w, Input.bus w ∉ inputs) :
    Inv (loadedSmall inputs answers) := by
  refine inv_of_loaded rfl rfl rfl rfl (.inr rfl) ?_ ?_ h
  · exact ⟨loaded_counts.hit_le, loaded_counts.fault_le, loaded_counts.sum_le, loaded_counts.fault_eq,
      fun _ => (by decide : (1 : Nat) = min 1 (1 - 0))⟩
  · exact ⟨fun _ => rfl, fun h => by cases h⟩

/-- `loaded` after an IoError. -/
def halted (inputs : List Input) : State := { loaded with inputs := inputs, halted := true, cause := 1#3 }

theorem halted_inv {inputs : List Input} (h : ∀ w, Input.bus w ∉ inputs) : Inv (halted inputs) := by
  refine inv_of_loaded rfl rfl rfl rfl (.inr rfl) ?_ ?_ h
  · exact ⟨loaded_counts.hit_le, loaded_counts.fault_le, loaded_counts.sum_le, loaded_counts.fault_eq,
      loaded_counts.occupancy⟩
  · exact ⟨(fun h => by cases h), fun _ => ⟨.ioError, rfl⟩⟩

/-- `loaded` with a saturated `total_count` and any of two TLBs. -/
def saturated (tlb : List TlbEntry) : State := { loaded with tlb := tlb, totalCount := 4294967295#32 }

theorem saturated_inv {tlb : List TlbEntry} (h : tlb = [] ∨ tlb = loaded.tlb) : Inv (saturated tlb) := by
  refine inv_of_loaded rfl rfl rfl rfl h ?_ ⟨fun _ => rfl, fun h => by cases h⟩
    (fun w => by simp [saturated, loaded, State.reset])
  have h : ¬ (4294967295#32).toNat < countMax := by decide
  exact ⟨(by decide : 0#32 ≤ 4294967295#32), (by decide : 1#32 ≤ 4294967295#32), fun g => absurd g h, rfl,
    fun g => absurd g h⟩

theorem noReset_of_host {s : State} {w : Word} {rest : List Input} (h : s.inputs = .host w :: rest)
    (hb : s.bsReq = none) : NoReset s := by
  intro r hr
  rw [State.accept_host h (State.abandoned_of_idle hb rest)] at hr
  unfold acceptHost at hr
  split at hr <;> cases hr

theorem noReset_of_bus {s : State} {w : Word} {rest : List Input} (h : s.inputs = .bus w :: rest)
    (hb : s.bsReq = none) : NoReset s := by
  intro r hr
  rw [State.accept_bus h (State.abandoned_of_idle hb rest)] at hr
  unfold acceptBus at hr
  split at hr <;> cases hr

theorem no_bus_host (w v : Word) : Input.bus v ∉ [Input.host w] := by simp

/-- A second error on a halted block leaves CAUSE at the first (60_exceptions.md R208). -/
theorem test_second_error_keeps_cause :
    holds (step { halted [.bus 0xA00000100#36] with config := smallConfig }) (fun t =>
      decide (t.halted = true ∧ t.cause = 1#3 ∧ t.bus = some (.raised .invalidAddress))) = true := by decide

/-! ### Witnesses: encoding -/

theorem test_witness_DecodeEncodeRoundTrip :
    (Instr.rdcsr 6#32).wellFormed = true ∧ (Instr.rdcsr 6#32).hostIssuable = true ∧
    (Instr.rdbyte 255#8 0#8).wellFormed = true ∧ (Instr.rdbyte 255#8 0#8).hostIssuable = false := by decide

theorem test_witness_OperandLayouts :
    (0x1FFFFFFFF#36).toNat / 4294967296 = 1 ∧
    ((0x200000006#36).toNat / 4294967296 = 2 ∧ (0x200000006#36).toNat % 4294967296 % 16 ≤ 6) ∧
    ((0x200000007#36).toNat / 4294967296 = 2 ∧ 7 ≤ (0x200000007#36).toNat % 4294967296 % 16) ∧
    (0x4FFFFFFFF#36).toNat / 4294967296 = 4 ∧ (0x5000000FF#36).toNat / 4294967296 = 5 ∧
    (0x60000FF00#36).toNat / 4294967296 = 6 ∧ (0x700000000#36).toNat / 4294967296 = 7 ∧
    (0x8000000FF#36).toNat / 4294967296 = 8 ∧ (0x9000000FF#36).toNat / 4294967296 = 9 ∧
    (0xA0000FFFF#36).toNat / 4294967296 = 10 ∧
    ((0x0FFFFFFFF#36).toNat / 4294967296 = 0 ∧ (0x300000000#36).toNat / 4294967296 = 3 ∧
      11 ≤ (0xB00000000#36).toNat / 4294967296 ∧ 11 ≤ (0xFFFFFFFFF#36).toNat / 4294967296) := by decide

theorem test_witness_HostPortClassifiesEveryWord :
    opOf 0x100000000#36 = 1#4 ∧ (opOf 0x200000006#36 = 2#4 ∧ (0x200000006#36).toNat % 16 ≤ 6) ∧
    IllegalWord 0x200000007#36 ∧ IllegalWord 0xFFFFFFFFF#36 ∧ IllegalWord 0#36 := by
  unfold IllegalWord; decide

theorem test_witness_UnusedOperandBitsAreIgnored :
    (0xFFFF0102#32).setWidth 16 = (0x102#32).setWidth 16 ∧
    (0xFFFFFFF1#32).setWidth 4 = (1#32).setWidth 4 ∧
    (opOf 0x5FFFFFF01#36 = opOf 0x500000001#36 ∧ opOf 0x500000001#36 = 5#4 ∧
      (0x5FFFFFF01#36).setWidth 8 = (0x500000001#36).setWidth 8) ∧
    (opOf 0x7FFFFFF01#36 = opOf 0x700000001#36 ∧ opOf 0x700000001#36 = 7#4 ∧
      (0x7FFFFFF01#36).setWidth 8 = (0x700000001#36).setWidth 8) ∧
    (opOf 0x9FFFFFF01#36 = opOf 0x900000001#36 ∧ opOf 0x900000001#36 = 9#4 ∧
      (0x9FFFFFF01#36).setWidth 8 = (0x900000001#36).setWidth 8) ∧
    (opOf 0x6FFFF0102#36 = opOf 0x600000102#36 ∧ opOf 0x600000102#36 = 6#4 ∧
      (0x6FFFF0102#36).setWidth 16 = (0x600000102#36).setWidth 16) ∧
    (opOf 0x8FFFF0102#36 = opOf 0x800000102#36 ∧ opOf 0x800000102#36 = 8#4 ∧
      (0x8FFFF0102#36).setWidth 16 = (0x800000102#36).setWidth 16) ∧
    (opOf 0xAFFFF0102#36 = opOf 0xA00000102#36 ∧ opOf 0xA00000102#36 = 10#4 ∧
      (0xAFFFF0102#36).setWidth 16 = (0xA00000102#36).setWidth 16) := by decide

theorem test_witness_DecodeIsInvertible :
    (0xFFFFFFFF#32).toNat % 65536 = (255#8).toNat * 256 + (255#8).toNat ∧
    (0x10000#32).toNat % 65536 = (0#8).toNat * 256 + (0#8).toNat := by decide

/-! ### Witnesses: reset and the inputs -/

theorem test_witness_ResetInputRestarts :
    (halted [.rst, .host 0#36]).inputs = .rst :: [.host 0#36] := rfl

theorem test_witness_ResetAbandonsWaitingCommand :
    let s : State := { fresh [] with inputs := [.host 0x100000102#36, .rst], bsReq := some 1#8 }
    let u : State := { fresh [] with inputs := [.bus 0x900000001#36, .rst], bsReq := some 1#8 }
    (s.inputs = .host 0x100000102#36 :: .rst :: [] ∧ s.bsReq ≠ none ∧ s.bsAnswers = []) ∧
    (u.inputs = .bus 0x900000001#36 :: .rst :: [] ∧ u.bsReq ≠ none ∧ u.bsAnswers = []) := by decide

theorem test_witness_StepRunsDecodedInstruction_answered :
    let s : State := loadedWith [.host 0x100000103#36] []
    s.abandoned [] = false ∧ s.inputs = .host 0x100000103#36 :: [] ∧
    hostDecode 0x100000103#36 = .ok (.xlate 259#32) ∧
    ∃ t, exec (.xlate 259#32) s = .next t ∧ t.bsReq = none := by
  refine ⟨by decide, by decide, by decide, ?_⟩
  obtain ⟨t, h, hb⟩ := next_of_holds (o := exec (.xlate 259#32) (loadedWith [.host 0x100000103#36] []))
    (P := fun t => decide (t.bsReq = none)) (by decide)
  exact ⟨t, h, by simpa using hb⟩

theorem test_witness_StepRunsDecodedInstruction_waiting :
    let s : State := { fresh [] with inputs := [.bus 0x900000001#36, .host 0#36] }
    s.abandoned [.host 0#36] = false ∧ s.inputs = .bus 0x900000001#36 :: [.host 0#36] ∧
    busDecode 0x900000001#36 = .ok (.swapin 1#8) ∧
    ∃ t, exec (.swapin 1#8) s = .next t ∧ t.bsReq ≠ none := by
  refine ⟨by decide, by decide, by decide, _, rfl, ?_⟩
  simp

theorem test_witness_StepRunsDecodedInstruction_fault :
    let s : State := { State.reset with inputs := [.bus 0xA00000000#36] }
    s.abandoned [] = false ∧ s.inputs = .bus 0xA00000000#36 :: [] ∧
    busDecode 0xA00000000#36 = .ok (.rdbyte 0#8 0#8) ∧
    exec (.rdbyte 0#8 0#8) s = .fault (.unwrittenByte 0#16) :=
  ⟨by decide, by decide, by decide, rfl⟩

theorem test_witness_IdleBlockHoldsItsState : (loadedWith [] [.ok]).inputs = [] := rfl

theorem test_witness_IllegalWordsAreAnsweredIllegalCommand :
    ((halted [.host 0xF00000000#36]).inputs = .host 0xF00000000#36 :: [] ∧
      (halted [.host 0xF00000000#36]).bsReq = none ∧ IllegalWord 0xF00000000#36) ∧
    ((loadedWith [.host 0x200000007#36] []).inputs = .host 0x200000007#36 :: [] ∧
      (loadedWith [.host 0x200000007#36] []).bsReq = none ∧ IllegalWord 0x200000007#36) := by
  unfold IllegalWord; decide

theorem test_witness_BusRefusesOtherWords :
    ({ State.reset with inputs := [.bus 0xB00000000#36] } : State).inputs = .bus 0xB00000000#36 :: [] ∧
    State.reset.bsReq = none ∧ 11#4 ≤ opOf 0xB00000000#36 ∧ opOf 0x100000000#36 = 1#4 ∧
    opOf 0x20000000F#36 = 2#4 ∧ opOf 0#36 = 0#4 ∧ opOf 0x3FFFFFFFF#36 = 3#4 := by decide

theorem test_witness_BlockWaitsForTheStore :
    let s : State := { fresh [] with inputs := [.host 0x100000102#36] }
    let u : State := { fresh [] with inputs := [.host 0x100000102#36, .rst] }
    (s.inputs = .host 0x100000102#36 :: [] ∧ hostDecode 0x100000102#36 = .ok (.xlate 258#32) ∧
      s.halted = false ∧ s.tlbLookup (pageOf 258#32) = none ∧ s.ptLookup (pageOf 258#32) = none ∧
      s.bsAnswers = [] ∧ ([] : List Input).head? ≠ some .rst) ∧
    (u.inputs = .host 0x100000102#36 :: [.rst] ∧ u.halted = false ∧ u.tlbLookup (pageOf 258#32) = none ∧
      u.ptLookup (pageOf 258#32) = none ∧ u.bsAnswers = [] ∧ u.bsReq = none) := by decide

/-! ### Witnesses: the micro-operations -/

theorem test_witness_TlbInsertAppendsEvictingOldest :
    let full : State := { State.reset with tlb := (List.range' 100 16).map entryOf }
    let last : State := { State.reset with tlb := (List.range' 100 15).map entryOf }
    full.tlb.length = full.config.tlbCap ∧ last.tlb.length ≠ last.config.tlbCap := by decide

theorem test_witness_TlbHoldsTheNewestEntries :
    let full : State := { State.reset with tlb := (List.range' 100 16).map entryOf }
    full.tlb.length ≤ full.config.tlbCap ∧ ∃ t, exec (.tlbins 5#8 9#8) full = .next t :=
  ⟨by decide, _, rfl⟩

theorem test_witness_TlbFifoLaw :
    State.reset.tlb = [] ∧ ((List.range' 101 16).map entryOf).length = State.reset.config.tlbCap ∧
    (((List.range' 100 17).map entryOf).map (fun d => d.page)).Nodup ∧
    (List.range' 100 17).map entryOf = entryOf 100 :: (List.range' 101 16).map entryOf := by decide

theorem test_witness_RingRefinesSequence :
    (16#5).toNat ≤ 16 ∧ (16#5).toNat = 16 ∧ (15#5).toNat < 16 ∧ (0#5).toNat < 16 := by decide

theorem test_witness_SwapInServicesThePageFault :
    (fresh [.err]).bsAnswers = .err :: [] ∧
    (let s : State := { fresh [.ok] with nextFrame := 256#9 };
      s.bsAnswers = .ok :: [] ∧ s.config.numFrames ≤ s.nextFrame.toNat) ∧
    (let s : State := { fresh [.ok] with nextFrame := 255#9 };
      s.bsAnswers = .ok :: [] ∧ s.nextFrame.toNat < s.config.numFrames) := by decide

theorem test_witness_SwapInWaitsForTheStore : (fresh []).bsAnswers = [] := rfl

theorem test_witness_ReadByteReadsOrRaises :
    let s := loadedSmall [] []
    ((0#8).toNat < s.config.numFrames ∧ readCell s.pm ((0#8).toNat * 256 + (255#8).toNat) = some 0x1E#8) ∧
    s.config.numFrames ≤ (1#8).toNat := by decide

theorem test_witness_ReadOfUnwrittenByteFaults :
    (1#8).toNat < loaded.config.numFrames ∧
    readCell loaded.pm ((1#8).toNat * 256 + (0#8).toNat) = none := by decide

/-! ### Witnesses: XLATE and RDCSR -/

theorem test_witness_XlateOnTlbHit :
    loaded.halted = false ∧ loaded.tlbLookup (pageOf 259#32) = some 0#8 ∧
    (0#8).toNat < loaded.config.numFrames ∧
    readCell loaded.pm ((0#8).toNat * 256 + (offsetOf 259#32).toNat) = some 0x22#8 := by decide

theorem test_witness_XlateOnPageTableHit :
    let s : State := { loaded with tlb := [] }
    s.halted = false ∧ s.tlbLookup (pageOf 511#32) = none ∧ s.ptLookup (pageOf 511#32) = some 0#8 ∧
    (0#8).toNat < s.config.numFrames ∧
    readCell s.pm ((0#8).toNat * 256 + (offsetOf 511#32).toNat) = some 0x1E#8 := by decide

theorem test_witness_XlateOnPageFault :
    let s := fresh [.ok]
    s.halted = false ∧ s.tlbLookup (pageOf 258#32) = none ∧ s.ptLookup (pageOf 258#32) = none ∧
    s.bsAnswers = .ok :: [] ∧ s.nextFrame.toNat < s.config.numFrames := by decide

theorem test_witness_XlateWhileHaltedIsRefused : (halted []).halted = true := rfl

theorem test_witness_XlateErrorExits :
    (let s := fresh [.err];
      s.halted = false ∧ s.tlbLookup (pageOf 258#32) = none ∧ s.ptLookup (pageOf 258#32) = none ∧
      s.bsAnswers = .err :: []) ∧
    (let s := loadedSmall [] [.ok];
      s.halted = false ∧ s.tlbLookup (pageOf 512#32) = none ∧ s.ptLookup (pageOf 512#32) = none ∧
      s.bsAnswers = .ok :: [] ∧ s.config.numFrames ≤ s.nextFrame.toNat) ∧
    (let s : State := { loadedSmall [] [] with tlb := [⟨1#8, 1#8⟩] };
      s.halted = false ∧ s.tlbLookup (pageOf 258#32) = some 1#8 ∧ s.config.numFrames ≤ (1#8).toNat) ∧
    (let s : State := { loadedSmall [] [] with tlb := [], pt := State.reset.pt.set 1 (some 1#8) };
      s.halted = false ∧ s.tlbLookup (pageOf 258#32) = none ∧ s.ptLookup (pageOf 258#32) = some 1#8 ∧
      s.config.numFrames ≤ (1#8).toNat) := by decide

/-- The property that an operation was answered with these events. -/
def answeredWith (events : Status × Bool × Bool) (t : State) : Bool :=
  decide (t.bsReq = none ∧ rspEvents t = some events)

theorem answered_of_holds {o : Host.Outcome State Fault Refusal} {st : Status} {hit fault : Bool}
    (h : holds o (answeredWith (st, hit, fault)) = true) :
    ∃ t r, o = .next t ∧ t.bsReq = none ∧ t.rsp = some r ∧ r.status = st ∧ r.hit = hit ∧ r.fault = fault := by
  obtain ⟨t, ho, hp⟩ := next_of_holds h
  simp only [answeredWith, rspEvents, decide_eq_true_eq, Option.map_eq_some_iff, Prod.mk.injEq] at hp
  obtain ⟨hb, r, hr, h1, h2, h3⟩ := hp
  exact ⟨t, r, ho, hb, hr, h1, h2, h3⟩

/-- A TLB hit, a page-table hit and a page fault meet the hypotheses of the statements about an XLATE answered
OK: XlateResponseFields, XlateHasThreeSuccessfulLeaves, CountersChangeOnlyOnSuccess. -/
theorem test_witness_XlateResponseFields :
    (∃ t r, exec (.xlate 259#32) loaded = .next t ∧ t.bsReq = none ∧ t.rsp = some r ∧ r.status = .ok ∧
      r.hit = true ∧ r.fault = false) ∧
    (∃ t r, exec (.xlate 511#32) { loaded with tlb := [] } = .next t ∧ t.bsReq = none ∧ t.rsp = some r ∧
      r.status = .ok ∧ r.hit = false ∧ r.fault = false) ∧
    (∃ t r, exec (.xlate 258#32) (fresh [.ok]) = .next t ∧ t.bsReq = none ∧ t.rsp = some r ∧
      r.status = .ok ∧ r.hit = false ∧ r.fault = true) :=
  ⟨answered_of_holds (by decide), answered_of_holds (by decide), answered_of_holds (by decide)⟩

/-- A page fault, a TLB hit and a page-table hit, each answered OK. -/
theorem test_witness_XlateHasThreeSuccessfulLeaves :
    ∃ t r, exec (.xlate 257#32) (fresh [.ok, .err]) = .next t ∧ t.bsReq = none ∧ t.rsp = some r ∧
      r.status = .ok ∧ r.hit = false ∧ r.fault = true := answered_of_holds (by decide)

/-- An XLATE answered OK, one answered with an error, one that waits, and another operation. -/
theorem test_witness_CountersChangeOnlyOnSuccess :
    (∃ t r, exec (.xlate 259#32) (saturated loaded.tlb) = .next t ∧ t.bsReq = none ∧ t.rsp = some r ∧
      r.status = .ok ∧ r.hit = true ∧ r.fault = false) ∧
    (∃ t r, exec (.xlate 258#32) (fresh [.err]) = .next t ∧ t.bsReq = none ∧ t.rsp = some r ∧
      r.status = .error .ioError ∧ r.hit = false ∧ r.fault = false) ∧
    (∃ t, exec (.xlate 258#32) (fresh []) = .next t ∧ t.bsReq ≠ none) ∧
    ∃ t, exec (.tlbins 1#8 0#8) loaded = .next t :=
  ⟨answered_of_holds (by decide), answered_of_holds (by decide), ⟨_, rfl, by simp⟩, ⟨_, rfl⟩⟩

theorem test_witness_ReReadGivesTheFrameOfSwapIn :
    ∃ f t, (fresh [.ok]).swapIn 1#8 = .loaded f t := by
  rcases swapIn_cases 1#8 (fresh [.ok]) with ⟨h, _⟩ | ⟨_, h, _⟩ | ⟨_, _, h, _⟩ | ⟨_, _, _, h⟩
  · simp [fresh] at h
  · simp [fresh] at h
  · exact absurd h (by decide)
  · exact ⟨_, _, h⟩

theorem test_witness_RdcsrReadsTheRegister :
    (0xFFFFFFF0#32).toNat % 16 = 0 ∧ (1#32).toNat % 16 = 1 ∧ (2#32).toNat % 16 = 2 ∧
    (3#32).toNat % 16 = 3 ∧ (4#32).toNat % 16 = 4 ∧
    ((5#32).toNat % 16 = 5 ∧ loaded.tlb.length < 32) ∧
    ((6#32).toNat % 16 = 6 ∧ (6#32).toNat % 16 ≤ 6 ∧ loaded.config.tlbCap < 32 ∧
      loaded.config = Config.thisHardware) ∧
    7 ≤ (7#32).toNat % 16 ∧ 7 ≤ (0xFFFFFFFF#32).toNat % 16 := by decide

/-- The two clauses of RdcsrReadsTheRegister that ask for a part of the reachable-state predicate. -/
theorem test_witness_RdcsrReadsTheRegister_invariants :
    HaltInv (halted []) ∧ TlbInv (loadedWith [] []) ∧ (loadedWith [] []).config = Config.thisHardware :=
  ⟨(halted_inv (by simp)).halt, (loadedWith_inv [] (by simp)).tlb, rfl⟩

theorem test_witness_ReportReadsTheThreeCounters :
    (loadedWith (reportInputs ++ [.rst]) []).inputs = reportInputs ++ [.rst] ∧
    (loadedWith (reportInputs ++ [.rst]) []).bsReq = none := by decide

/-! ### Witnesses: whole-machine rules -/

/-- The state of most witnesses below: page 1 in frame 0, and `XLATE 259` on the host port. -/
def ready : State := loadedWith [.host 0x100000103#36] [.ok]

theorem ready_inv : Inv ready := loadedWith_inv _ (no_bus_host _)
theorem ready_noReset : NoReset ready := noReset_of_host rfl rfl

theorem ready_step : ∃ t, step ready = .next t := by
  obtain ⟨t, h, -⟩ := next_of_holds (o := step ready) (P := fun _ => true) (by decide)
  exact ⟨t, h⟩

theorem test_witness_EveryStepKeepsWellFormedness : Inv ready ∧ ∃ t, step ready = .next t :=
  ⟨ready_inv, ready_step⟩

theorem test_witness_WellFormedStatesNeverFault :
    Inv (loadedSmall [] [.ok]) ∧
    ∃ t r, exec (.xlate 512#32) (loadedSmall [] [.ok]) = .next t ∧ t.bsReq = none ∧ t.rsp = some r ∧
      r.status = .error .capacityExhausted ∧ r.hit = false ∧ r.fault = false :=
  ⟨loadedSmall_inv _ (by simp), answered_of_holds (by decide)⟩

theorem test_witness_CapacityIsNeverExhaustedAt256Frames :
    Inv (loadedWith [] [.ok]) ∧ (loadedWith [] [.ok]).config.numFrames = 256 ∧
    ∃ t r, exec (.xlate 512#32) (loadedWith [] [.ok]) = .next t ∧ t.bsReq = none ∧ t.rsp = some r ∧
      r.status = .ok ∧ r.hit = false ∧ r.fault = true :=
  ⟨loadedWith_inv _ (by simp), rfl, answered_of_holds (by decide)⟩

theorem test_witness_TranslationReadsTheStore :
    Inv (loadedWith [] [.ok]) ∧
    (∃ t r, exec (.xlate 512#32) (loadedWith [] [.ok]) = .next t ∧ t.bsReq = none ∧ t.rsp = some r ∧
      r.status = .ok ∧ r.hit = false ∧ r.fault = true) ∧
    (∃ t r, exec (.xlate 259#32) (loadedWith [] [.ok]) = .next t ∧ t.bsReq = none ∧ t.rsp = some r ∧
      r.status = .ok ∧ r.hit = true ∧ r.fault = false) :=
  ⟨loadedWith_inv _ (by simp), answered_of_holds (by decide), answered_of_holds (by decide)⟩

theorem test_witness_FramesAreStable :
    Inv ready ∧ NoReset ready ∧ (∃ t, step ready = .next t) ∧ ready.ptLookup 1#8 = some 0#8 :=
  ⟨ready_inv, ready_noReset, ready_step, by decide⟩

theorem test_witness_LoadedBytesNeverChange :
    Inv ready ∧ NoReset ready ∧ (∃ t, step ready = .next t) ∧ readCell ready.pm 255 = some 0x1E#8 :=
  ⟨ready_inv, ready_noReset, ready_step, by decide⟩

theorem test_witness_OnlyResetUndoes :
    (NoReset ready ∧ (∃ t, step ready = .next t) ∧ ready.ptLookup 1#8 ≠ none) ∧
    (NoReset (halted [.host 0x100000103#36]) ∧ (∃ t, step (halted [.host 0x100000103#36]) = .next t) ∧
      (halted [.host 0x100000103#36]).halted = true) :=
  ⟨⟨ready_noReset, ready_step, by decide⟩, noReset_of_host rfl rfl, ⟨_, rfl⟩, rfl⟩

theorem test_witness_HaltIsFinal :
    let s := halted [.host 0x100000103#36]
    s.halted = true ∧ HostDriven s ∧ NoReset s ∧ ∃ t, step s = .next t :=
  ⟨rfl, no_bus_host _, noReset_of_host rfl rfl, _, rfl⟩

/-- One witness for each clause of R210. -/
theorem test_witness_PriorityOfConditions :
    (IllegalWord 0xF00000000#36 ∧
      ∃ t r, step (halted [.host 0xF00000000#36]) = .next t ∧ t.bsReq = none ∧ t.rsp = some r ∧
        r.status = .illegalCommand ∧ r.hit = false ∧ r.fault = false) ∧
    (∃ t r, step (halted [.host 0x100000103#36]) = .next t ∧ t.bsReq = none ∧ t.rsp = some r ∧
      r.status = .halted ∧ r.hit = false ∧ r.fault = false) ∧
    (∃ t r, step (loadedSmall [.host 0x100000200#36] [.err]) = .next t ∧ t.bsReq = none ∧
      t.rsp = some r ∧ r.status = .error .ioError ∧ r.hit = false ∧ r.fault = false) ∧
    (∃ t r, step (loadedSmall [.host 0x100000200#36] [.ok]) = .next t ∧ t.bsReq = none ∧
      t.rsp = some r ∧ r.status = .error .capacityExhausted ∧ r.hit = false ∧ r.fault = false) ∧
    (∃ t r, step { loadedSmall [.host 0x100000103#36] [] with tlb := [⟨1#8, 1#8⟩] } = .next t ∧
      t.bsReq = none ∧ t.rsp = some r ∧ r.status = .error .invalidAddress ∧ r.hit = false ∧
      r.fault = false) ∧
    (∃ t r, step (loadedWith [.host 0x100000200#36] [.ok]) = .next t ∧ t.bsReq = none ∧
      t.rsp = some r ∧ r.status = .ok ∧ r.hit = false ∧ r.fault = true) ∧
    (∃ t r, step ready = .next t ∧ t.bsReq = none ∧ t.rsp = some r ∧ r.status = .ok ∧ r.hit = true ∧
      r.fault = false) := by
  refine ⟨⟨by unfold IllegalWord; decide, ?_⟩, ?_, ?_, ?_, ?_, ?_, ?_⟩ <;> exact answered_of_holds (by decide)

theorem test_witness_OneResponsePerCommand :
    Inv ready ∧ ready.inputs = .host 0x100000103#36 :: [] ∧ ready.bsReq = none := ⟨ready_inv, rfl, rfl⟩

theorem test_witness_OperationsReadTheStoreAtMostOnce :
    (∃ t, exec (.swapin 1#8) (fresh [.err, .ok]) = .next t) ∧ ∃ t, exec (.ptmark 2#8 5#8) loaded = .next t :=
  ⟨⟨_, rfl⟩, ⟨_, rfl⟩⟩

theorem test_witness_TlbContentsDoNotChangeResults :
    let s := saturated loaded.tlb
    let u := saturated []
    Inv s ∧ Inv u ∧ u = { s with tlb := u.tlb, totalCount := u.totalCount, hitCount := u.hitCount } ∧
    (∃ t r, exec (.xlate 259#32) s = .next t ∧ t.bsReq = none ∧ t.rsp = some r ∧ r.status = .ok ∧
      r.hit = true ∧ r.fault = false) ∧
    (∃ v q, exec (.xlate 259#32) u = .next v ∧ v.bsReq = none ∧ v.rsp = some q ∧ q.status = .ok ∧
      q.hit = false ∧ q.fault = false) :=
  ⟨saturated_inv (.inr rfl), saturated_inv (.inl rfl), rfl, answered_of_holds (by decide),
    answered_of_holds (by decide)⟩

theorem test_witness_ColdStartLaw :
    let s := loadedWith [] [.ok]
    Inv s ∧ s.halted = false ∧ s.ptLookup (pageOf 512#32) = none ∧ s.bsAnswers = .ok :: [] ∧
    s.nextFrame.toNat < s.config.numFrames ∧ pageOf 513#32 = pageOf 512#32 :=
  ⟨loadedWith_inv _ (by simp), rfl, by decide, rfl, by decide, by decide⟩

/-- Two translations, of the loaded page and of another, with 256 frames and with one. -/
theorem test_witness_RunLoadsEachDistinctPageOnce :
    let trace : List Arg := [258#32, 512#32]
    let ins := trace.map (fun a => Input.host (encode (.xlate a)))
    let fresh (s : State) : Nat :=
      ((trace.map pageOf).filter (fun p => (s.ptLookup p).isNone)).toFinset.card
    let s := loadedWith ins [.ok, .ok]
    let u := loadedSmall ins [.ok, .ok]
    (Inv s ∧ s.halted = false ∧ s.bsReq = none ∧ s.inputs = ins ∧ s.bsAnswers = List.replicate 2 .ok ∧
      trace.length ≤ 2 ∧ s.nextFrame.toNat + fresh s ≤ s.config.numFrames) ∧
    (Inv u ∧ u.halted = false ∧ u.bsReq = none ∧ u.inputs = ins ∧ u.bsAnswers = List.replicate 2 .ok ∧
      trace.length ≤ 2 ∧ u.config.numFrames < u.nextFrame.toNat + fresh u) :=
  ⟨⟨loadedWith_inv _ (by simp), rfl, rfl, rfl, rfl, by decide, by decide⟩,
    ⟨loadedSmall_inv _ (by simp), rfl, rfl, rfl, rfl, by decide, by decide⟩⟩

/-- The boundary of the first clause: two frames, one used, one distinct new page. -/
theorem test_witness_RunLoadsEachDistinctPageOnce_last_frame :
    let trace : List Arg := [512#32, 513#32]
    let ins := trace.map (fun a => Input.host (encode (.xlate a)))
    let s : State := { loadedSmall ins [.ok, .ok] with config := { tlbCap := 1, numFrames := 2 } }
    Inv s ∧ s.halted = false ∧ s.bsReq = none ∧ s.inputs = ins ∧ s.bsAnswers = List.replicate 2 .ok ∧
      trace.length ≤ 2 ∧
      s.nextFrame.toNat + ((trace.map pageOf).filter (fun p => (s.ptLookup p).isNone)).toFinset.card =
        s.config.numFrames := by
  refine ⟨inv_of_loaded rfl rfl rfl rfl (.inr rfl) ?_ ⟨fun _ => rfl, fun h => by cases h⟩
    (by intro w; simp [loadedSmall]), rfl, rfl, rfl, rfl, by decide, by decide⟩
  exact ⟨loaded_counts.hit_le, loaded_counts.fault_le, loaded_counts.sum_le, loaded_counts.fault_eq,
    fun _ => (by decide : (1 : Nat) = min 1 (1 - 0))⟩

/-- A halted block after an IoError, and RDBYTE out of range on the internal bus. -/
theorem test_witness_FirstErrorIsKept :
    let s : State := { halted [.bus 0xA00000100#36] with config := smallConfig }
    s.halted = true ∧ NoReset s ∧ (∃ t, exec (.rdbyte 1#8 0#8) s = .next t) ∧ ∃ t, step s = .next t :=
  ⟨rfl, noReset_of_bus rfl rfl, ⟨_, rfl⟩, ⟨_, rfl⟩⟩

theorem test_witness_TraceValuesBecomeTranslations : (4294967295 : Nat) < 4294967296 := by decide

theorem test_witness_RatesLieBetweenZeroAndOne :
    Inv (loadedWith [] []) ∧ (loadedWith [] []).totalCount ≠ 0#32 :=
  ⟨loadedWith_inv _ (by simp), by decide⟩

end Sys2Proof.Tests
end

section
/-! PROOFS. The values that the block and the ring realisation of the TLB hold after reset
(10_state.md R47). -/

namespace Sys2Proof.Machine

/-- Every page-table entry is invalid after reset. -/
@[simp] theorem State.ptLookup_reset (p : Page) : State.reset.ptLookup p = none := by
  simp only [State.ptLookup, State.reset, Vector.getElem_replicate]

/-- CONFIG shows `NUM_FRAMES` = 256 from bit 8 up and `TLB_CAP` = 16 in bits [4:0] (R40). -/
theorem State.csrConfig_reset : State.reset.csrConfig = 0x00010010#32 := by decide

/-- A ring with no live slot stands for the empty sequence, whatever its slots and its head hold. -/
theorem ringToList_of_count_zero {r : TlbRing} (h : r.count = 0#5) : ringToList r = [] := by
  simp [ringToList, h]

/-- Settles O6: memory and the TLB are empty lists, the page table answers none for every page
(`State.ptLookup_reset`), and a ring after reset has no live slot (`ringToList_of_count_zero`). -/
theorem resetValues : Obligations.ResetValues := by
  have hring (slots : Vector TlbEntry 16) : (ringReset slots).head = 0#4 ∧ (ringReset slots).count = 0#5 ∧
      ringToList (ringReset slots) = [] := ⟨rfl, rfl, ringToList_of_count_zero rfl⟩
  exact ⟨rfl, State.ptLookup_reset, readCell_nil, rfl, rfl, rfl, rfl, rfl, rfl, State.csrConfig_reset, hring⟩

end Sys2Proof.Machine
end

section
/-! PROOFS. What the bits of a command word decide: a field of the operand depends on its own bits only, the
decoder reads no other bit, and the number that stands for an encoded operation (30_encoding.md R84, R85,
R89). -/

namespace Sys2Proof.Machine

/-! ### Fields of words that agree in their low bits -/

/-- A field inside the low `n` bits is the same in words that agree there. -/
theorem extractLsb'_eq_of_setWidth_eq {m n start len : Nat} {v w : BitVec m}
    (h : v.setWidth n = w.setWidth n) (hle : start + len ≤ n) :
    v.extractLsb' start len = w.extractLsb' start len := by
  rw [← BitVec.extractLsb'_setWidth_of_le hle, h, BitVec.extractLsb'_setWidth_of_le hle]

theorem argOf_eq_setWidth (w : Word) : argOf w = w.setWidth 32 :=
  (BitVec.setWidth_eq_extractLsb' (by decide)).symm

theorem argOf_setWidth_eq {n : Nat} {v w : Word} (hn : n ≤ 32) (h : v.setWidth n = w.setWidth n) :
    (argOf v).setWidth n = (argOf w).setWidth n := by
  simp only [argOf_eq_setWidth, BitVec.setWidth_setWidth_of_le _ hn, h]

theorem csrOf_argOf_toNat (w : Word) : (csrOf (argOf w)).toNat = w.toNat % 16 := by
  simp only [csrOf, argOf, BitVec.extractLsb'_toNat, Nat.shiftRight_zero]
  omega

/-! ### The micro-operation a word stands for, by its operation code -/

theorem decode_tlblkup {w : Word} (h : opOf w = 5#4) : decode w = .ok (.tlblkup (argLow (argOf w))) := by
  simp [decode, h]

theorem decode_tlbins {w : Word} (h : opOf w = 6#4) :
    decode w = .ok (.tlbins (argHigh (argOf w)) (argLow (argOf w))) := by
  simp [decode, h]

theorem decode_ptlkup {w : Word} (h : opOf w = 7#4) : decode w = .ok (.ptlkup (argLow (argOf w))) := by
  simp [decode, h]

theorem decode_ptmark {w : Word} (h : opOf w = 8#4) :
    decode w = .ok (.ptmark (argHigh (argOf w)) (argLow (argOf w))) := by
  simp [decode, h]

theorem decode_swapin {w : Word} (h : opOf w = 9#4) : decode w = .ok (.swapin (argLow (argOf w))) := by
  simp [decode, h]

theorem decode_rdbyte {w : Word} (h : opOf w = 10#4) :
    decode w = .ok (.rdbyte (argHigh (argOf w)) (argLow (argOf w))) := by
  simp [decode, h]

/-- The layout of TLBLKUP, PTLKUP and SWAPIN names `arg[7:0]` and no other bit. -/
theorem decode_eq_of_low8_eq {v w : Word} (hop : opOf v = opOf w)
    (hw : opOf w = 5#4 ∨ opOf w = 7#4 ∨ opOf w = 9#4) (h : v.setWidth 8 = w.setWidth 8) :
    decode v = decode w := by
  have hlow : argLow (argOf v) = argLow (argOf w) :=
    extractLsb'_eq_of_setWidth_eq (argOf_setWidth_eq (by decide) h) (by decide)
  rcases hw with hw | hw | hw
  · rw [decode_tlblkup (hop.trans hw), decode_tlblkup hw, hlow]
  · rw [decode_ptlkup (hop.trans hw), decode_ptlkup hw, hlow]
  · rw [decode_swapin (hop.trans hw), decode_swapin hw, hlow]

/-- The layout of TLBINS, PTMARK and RDBYTE names `arg[15:0]` and no other bit. -/
theorem decode_eq_of_low16_eq {v w : Word} (hop : opOf v = opOf w)
    (hw : opOf w = 6#4 ∨ opOf w = 8#4 ∨ opOf w = 10#4) (h : v.setWidth 16 = w.setWidth 16) :
    decode v = decode w := by
  have harg : (argOf v).setWidth 16 = (argOf w).setWidth 16 := argOf_setWidth_eq (by decide) h
  have hlow : argLow (argOf v) = argLow (argOf w) := extractLsb'_eq_of_setWidth_eq harg (by decide)
  have hhigh : argHigh (argOf v) = argHigh (argOf w) := extractLsb'_eq_of_setWidth_eq harg (by decide)
  rcases hw with hw | hw | hw
  · rw [decode_tlbins (hop.trans hw), decode_tlbins hw, hlow, hhigh]
  · rw [decode_ptmark (hop.trans hw), decode_ptmark hw, hlow, hhigh]
  · rw [decode_rdbyte (hop.trans hw), decode_rdbyte hw, hlow, hhigh]

/-! ### The encoder's word as a number -/

/-- Concatenation as arithmetic: the upper part is shifted past the lower one. -/
theorem append_toNat {m n : Nat} (x : BitVec m) (y : BitVec n) :
    (x ++ y).toNat = x.toNat * 2 ^ n + y.toNat := by
  rw [BitVec.toNat_append, ← Nat.shiftLeft_add_eq_or_of_lt y.isLt, Nat.shiftLeft_eq]

theorem encode_toNat (i : Instr) : (encode i).toNat = i.opcode.toNat * 4294967296 + i.operand.toNat :=
  append_toNat i.opcode i.operand

/-- A one-field operand has only its field's bits. -/
theorem zero_append_toNat (p : BitVec 8) : (0#24 ++ p : BitVec 32).toNat = p.toNat := by
  rw [append_toNat]; simp

/-- A two-field operand has only its fields' bits. -/
theorem zero_append_append_toNat (p f : BitVec 8) :
    (0#16 ++ p ++ f : BitVec 32).toNat = p.toNat * 256 + f.toNat := by
  rw [append_toNat, append_toNat]; simp

/-- The encoder drives every bit that a micro-operation's layout does not name as 0 (R89). -/
theorem encode_drives_unused_bits_zero (p f : BitVec 8) :
    (encode (.tlblkup p)).toNat = 5 * 4294967296 + p.toNat ∧
    (encode (.tlbins p f)).toNat = 6 * 4294967296 + p.toNat * 256 + f.toNat ∧
    (encode (.ptlkup p)).toNat = 7 * 4294967296 + p.toNat ∧
    (encode (.ptmark p f)).toNat = 8 * 4294967296 + p.toNat * 256 + f.toNat ∧
    (encode (.swapin p)).toNat = 9 * 4294967296 + p.toNat ∧
    (encode (.rdbyte p f)).toNat = 10 * 4294967296 + p.toNat * 256 + f.toNat := by
  simp [encode_toNat, Instr.opcode, Instr.operand, zero_append_toNat, zero_append_append_toNat, Nat.add_assoc]

end Sys2Proof.Machine
end

section
/-! PROOFS. Commands whose operands differ in ignored bits only: the same outcome but for the echo
(30_encoding.md R82, R89). -/

namespace Sys2Proof.Machine

@[simp] theorem State.eraseEcho_respond (s : State) (r : Response) :
    (s.respond r).eraseEcho = s.respond { r with addr := 0#32 } := rfl

/-- Of the address, the error exit of XLATE uses the page and the offset, and echoes the rest. -/
theorem eraseEcho_failXlate {a b : Arg} (hp : pageOf a = pageOf b) (ho : offsetOf a = offsetOf b) (e : Error)
    (s : State) : eraseEcho (.next (s.failXlate a e)) = eraseEcho (.next (s.failXlate b e)) := by
  simp [eraseEcho, State.failXlate, errorResponse, Response.bare, hp, ho]

/-- Of the address, steps 5 to 7 of XLATE use the page and the offset, and echo the rest. -/
theorem eraseEcho_finishXlate {a b : Arg} (hp : pageOf a = pageOf b) (ho : offsetOf a = offsetOf b)
    (hit fault : Bool) (frame : Frame) (s : State) :
    eraseEcho (finishXlate a hit fault frame s) = eraseEcho (finishXlate b hit fault frame s) := by
  unfold finishXlate
  rw [ho]
  cases s.readByte frame (offsetOf b) with
  | value v => simp [eraseEcho, okResponse, hp, ho]
  | outOfRange => exact eraseEcho_failXlate hp ho _ s
  | unwritten p => rfl

/-- Of the address, XLATE uses the page and the offset, and echoes the rest. -/
theorem eraseEcho_execXlate {a b : Arg} (hp : pageOf a = pageOf b) (ho : offsetOf a = offsetOf b) (s : State) :
    eraseEcho (execXlate a s) = eraseEcho (execXlate b s) := by
  unfold execXlate
  rw [hp]
  cases s.halted with
  | true => rfl
  | false =>
    cases s.tlbLookup (pageOf b) with
    | some f => exact eraseEcho_finishXlate hp ho true false f s
    | none =>
      cases s.ptLookup (pageOf b) with
      | some f => exact eraseEcho_finishXlate hp ho false false f _
      | none =>
        cases s.swapIn (pageOf b) with
        | waiting => rfl
        | failed e t => exact eraseEcho_failXlate hp ho e t
        | loaded f t => exact eraseEcho_finishXlate hp ho false true f _

/-- Of the operand, RDCSR uses the register number, and echoes the rest. -/
theorem eraseEcho_execRdcsr {a b : Arg} (h : csrOf a = csrOf b) (s : State) :
    eraseEcho (execRdcsr a s) = eraseEcho (execRdcsr b s) := by
  unfold execRdcsr
  rw [h]
  cases s.csrRead (csrOf b) with
  | some v => rfl
  | none => rfl

/-- Settles O4: the operations of the host and DECODE read the operand through `pageOf`, `offsetOf` and
`csrOf`, the decoder of a micro-operation through its named fields, and each of these depends on the low
bits only. -/
theorem unusedOperandBitsAreIgnored : Obligations.UnusedOperandBitsAreIgnored := by
  refine ⟨fun a b s h => ?_, fun a b s h => ?_, fun v w => decode_eq_of_low8_eq,
    fun v w => decode_eq_of_low16_eq, encode_drives_unused_bits_zero⟩
  · have hp : pageOf a = pageOf b := extractLsb'_eq_of_setWidth_eq h (by decide)
    have ho : offsetOf a = offsetOf b := extractLsb'_eq_of_setWidth_eq h (by decide)
    exact ⟨eraseEcho_execXlate hp ho s, by simp only [exec, execDecode, hp, ho]⟩
  · exact eraseEcho_execRdcsr (extractLsb'_eq_of_setWidth_eq h (by decide)) s

end Sys2Proof.Machine
end

section
/-! PROOFS. Words the host port does not accept (30_encoding.md R87, 60_exceptions.md R205). -/

namespace Sys2Proof.Machine

/-- The code and the operand of a word that decodes to an operation of the host. -/
theorem decode_ok_of_hostIssuable {w : Word} {i : Instr} (h : decode w = .ok i)
    (hi : i.hostIssuable = true) :
    (opOf w = 1#4 ∧ i = .xlate (argOf w)) ∨
    (opOf w = 2#4 ∧ i = .rdcsr (argOf w) ∧ csrOf (argOf w) ≤ 6#4) := by
  unfold decode at h
  dsimp only at h
  split at h
  case h_1 hop => exact .inl ⟨hop, (Decoded.ok.inj h).symm⟩
  case h_2 hop =>
    split at h
    · next hwf => exact .inr ⟨hop, (Decoded.ok.inj h).symm, of_decide_eq_true hwf⟩
    · cases h
  case h_10 => cases h
  all_goals
    cases h
    cases hi

/-- The host port hands on what the decoder reads, and only operations of the host. -/
theorem hostDecode_ok {w : Word} {i : Instr} (h : hostDecode w = .ok i) :
    decode w = .ok i ∧ i.hostIssuable = true := by
  unfold hostDecode at h
  split at h
  · next j hj =>
    split at h
    · next hi =>
      cases h
      exact ⟨hj, hi⟩
    · cases h
  · cases h

/-- The host port rejects every word that R87 calls illegal: one it accepts has code 1, or code 2 and a
register number up to 6. -/
theorem hostDecode_of_illegalWord {w : Word} (h : IllegalWord w) : ∃ r, hostDecode w = .reject r := by
  cases hd : hostDecode w with
  | reject r => exact ⟨r, rfl⟩
  | ok i =>
    exfalso
    obtain ⟨hdec, hi⟩ := hostDecode_ok hd
    rcases h with ⟨hop1, hop2⟩ | ⟨hop2, hcsr⟩
    · rcases decode_ok_of_hostIssuable hdec hi with ⟨hop, -⟩ | ⟨hop, -⟩
      · exact hop1 hop
      · exact hop2 hop
    · rcases decode_ok_of_hostIssuable hdec hi with ⟨hop, -⟩ | ⟨-, -, hle⟩
      · exact absurd (hop.symm.trans hop2) (by decide)
      · have hle : (csrOf (argOf w)).toNat ≤ 6 := hle
        rw [csrOf_argOf_toNat] at hle
        omega

/-- A rejected word is answered and taken, whatever the reason for the rejection. -/
theorem step_of_host_reject {s : State} {w : Word} {rest : List Input} {r : Reject}
    (hin : s.inputs = .host w :: rest) (ha : s.abandoned rest = false) (hr : hostDecode w = .reject r) :
    step s = .next ((s.answerIllegal (argOf w)).retire rest) := by
  simp [step, State.accept_host hin ha, acceptHost, hr]

/-- With no store request to withdraw, the answer changes the response port alone. -/
theorem State.answerIllegal_of_idle {s : State} (h : s.bsReq = none) (a : Arg) :
    s.answerIllegal a = { s with rsp := some (Response.bare .illegalCommand a) } := by
  simp [State.answerIllegal, State.respond, ← h]

/-- Settles O11: an illegal word is rejected (`hostDecode_of_illegalWord`), and the answer to a rejected word
does not look at HALTED. -/
theorem illegalWordsAreAnsweredIllegalCommand : Obligations.IllegalWordsAreAnsweredIllegalCommand := by
  intro s w rest hin hidle hw
  obtain ⟨r, hr⟩ := hostDecode_of_illegalWord hw
  refine ⟨?_, rfl⟩
  rw [step_of_host_reject hin (State.abandoned_of_idle hidle rest) hr,
    State.retire_of_answered (State.answerIllegal_bsReq s _), State.answerIllegal_of_idle hidle]
  rfl

end Sys2Proof.Machine
end

section
/-! PROOFS. DECODE: the fields of an address as shifts and masks, and the operation's next state
(40_address_decoder.md R110). -/

namespace Sys2Proof.Machine

/-- A byte of an address is what a logical right shift brings down to the low 8 bits and the mask keeps. -/
theorem extractLsb'_eq_shift_mask (addr : Arg) (start : Nat) :
    addr.extractLsb' start 8 = ((addr >>> start) &&& 0xFF#32).setWidth 8 := by
  have hmask : (0xFF#32).setWidth 8 = BitVec.allOnes 8 := rfl
  rw [BitVec.setWidth_and, hmask, BitVec.and_allOnes, BitVec.setWidth_ushiftRight_eq_extractLsb]

theorem pageOf_eq_shift_mask (addr : Arg) : pageOf addr = ((addr >>> 8) &&& 0xFF#32).setWidth 8 :=
  extractLsb'_eq_shift_mask addr 8

theorem offsetOf_eq_mask (addr : Arg) : offsetOf addr = (addr &&& 0xFF#32).setWidth 8 :=
  extractLsb'_eq_shift_mask addr 0

/-- Settles O14: DECODE drives `pageOf` and `offsetOf` on the bus, which are the shift and the mask of R110
(`pageOf_eq_shift_mask`, `offsetOf_eq_mask`); the code and the operand are those of the encoder's word. -/
theorem decodeSplitsAddress : Obligations.DecodeSplitsAddress := by
  intro s addr
  obtain ⟨hop, harg⟩ := Laws.EncodesOpcode.decode addr
  refine ⟨?_, pageOf_eq_shift_mask addr, offsetOf_eq_mask addr, hop, harg⟩
  rw [← pageOf_eq_shift_mask, ← offsetOf_eq_mask]
  rfl

end Sys2Proof.Machine
end

section
/-! PROOFS. The TLB operations: TLBLKUP finds the oldest match, TLBINS appends as the newest entry
(41_tlb.md R120, R121, R123). -/

namespace Sys2Proof.Machine

/-! ### Lookup by index -/

/-- A lookup finds a frame exactly when it is that of the first matching position, the oldest one (R120). -/
theorem tlbFind_eq_some_iff {tlb : List TlbEntry} {page : Page} {f : Frame} :
    tlbFind tlb page = some f ↔ ∃ (i : Nat) (h : i < tlb.length), tlb[i].page = page ∧ tlb[i].frame = f ∧
      ∀ (j : Nat) (hj : j < i), tlb[j].page ≠ page := by
  simp only [tlbFind, Option.map_eq_some_iff, List.find?_eq_some_iff_getElem, beq_iff_eq, Bool.not_eq_true',
    beq_eq_false_iff_ne]
  constructor
  · rintro ⟨e, ⟨hpage, i, hi, rfl, hfirst⟩, rfl⟩
    exact ⟨i, hi, hpage, rfl, hfirst⟩
  · rintro ⟨i, hi, hpage, rfl, hfirst⟩
    exact ⟨tlb[i], ⟨hpage, i, hi, rfl, hfirst⟩, rfl⟩

/-! ### Insertion by occupancy -/

theorem tlbAppend_of_full {cap : Nat} {tlb : List TlbEntry} (h : tlb.length = cap) (e : TlbEntry) :
    tlbAppend cap tlb e = tlb.tail ++ [e] := if_pos h

theorem tlbAppend_of_not_full {cap : Nat} {tlb : List TlbEntry} (h : tlb.length ≠ cap) (e : TlbEntry) :
    tlbAppend cap tlb e = tlb ++ [e] := if_neg h

/-! ### The two operations -/

/-- The operand of TLBLKUP is the page with its upper bits 0 (R89). -/
theorem zero_append_eq_setWidth (p : BitVec 8) : (0#24 ++ p : BitVec 32) = p.setWidth 32 :=
  (BitVec.setWidth_eq_append (by decide)).symm

/-- TLBINS writes the TLB, drives the bus and withdraws a store request. -/
theorem exec_tlbins (page : Page) (frame : Frame) (s : State) :
    exec (.tlbins page frame) s = .next { s with
      tlb := tlbAppend s.config.tlbCap s.tlb { page := page, frame := frame }, bus := some .done,
      bsReq := none } := rfl

/-- Settles O16: the answer is that of `tlbFind`, which reads the sequence from its oldest entry
(`tlbFind_eq_some_iff`) and misses when no entry matches (`tlbFind_eq_none_iff`). -/
theorem tlbLookupFindsOldestMatch : Obligations.TlbLookupFindsOldestMatch := by
  intro s page
  obtain ⟨hop, harg⟩ := Laws.EncodesOpcode.tlblkup page
  exact ⟨tlbFind s.tlb page, rfl, fun _ => tlbFind_eq_some_iff, tlbFind_eq_none_iff, hop,
    harg.trans (zero_append_eq_setWidth page)⟩

/-- Settles O17: the two branches of the capacity test (`tlbAppend_of_full`, `tlbAppend_of_not_full`) in the
next state of TLBINS; the code and the operand are those of the encoder's word. -/
theorem tlbInsertAppendsEvictingOldest : Obligations.TlbInsertAppendsEvictingOldest := by
  intro s page frame
  obtain ⟨hop, harg⟩ := Laws.EncodesOpcode.tlbins page frame
  refine ⟨fun hfull => ?_, fun hfree => ?_, hop, ?_⟩
  · rw [exec_tlbins, tlbAppend_of_full hfull]
  · rw [exec_tlbins, tlbAppend_of_not_full hfree]
  · rw [harg]
    exact zero_append_append_toNat page frame

end Sys2Proof.Machine
end

section
/-! PROOFS. The ring realisation of the TLB refines the sequence (10_state.md R26, 41_tlb.md R125). -/

namespace Sys2Proof.Machine

/-! ### Slots -/

theorem ringSlot_val (r : TlbRing) (i : Nat) : (ringSlot r i).val = (r.head.toNat + i) % 16 := rfl

/-- Position 0, the oldest entry, is in the slot `head`. -/
theorem ringSlot_zero_val (r : TlbRing) : (ringSlot r 0).val = r.head.toNat :=
  Nat.mod_eq_of_lt r.head.isLt

/-- Sixteen positions in a row are in sixteen different slots. -/
theorem ringSlot_val_ne {r : TlbRing} {i j : Nat} (hij : i < j) (hj : j < i + 16) :
    (ringSlot r j).val ≠ (ringSlot r i).val := by
  simp only [ringSlot_val]
  omega

/-- The position one round on is the slot it started from. -/
theorem ringSlot_add_sixteen (r : TlbRing) (i : Nat) : ringSlot r (i + 16) = ringSlot r i := by
  apply Fin.ext
  simp only [ringSlot_val]
  omega

/-- With `head` one further, each slot is one position lower. -/
theorem ringSlot_head_succ (r : TlbRing) (v : Vector TlbEntry 16) (i : Nat) :
    ringSlot { r with slots := v, head := r.head + 1#4 } i = ringSlot r (i + 1) := by
  apply Fin.ext
  simp only [ringSlot_val, BitVec.toNat_add, BitVec.toNat_ofNat]
  omega

/-! ### The sequence a ring stands for -/

@[simp] theorem length_ringToList (r : TlbRing) : (ringToList r).length = r.count.toNat := by
  simp [ringToList]

/-- A lookup on the ring compares the live slots in the order of the sequence (R122). -/
theorem ringLookup_eq_tlbFind (r : TlbRing) (page : Page) :
    ringLookup r page = tlbFind (ringToList r) page := by
  simp only [ringLookup, tlbFind, ringToList, List.find?_map, Option.map_map]
  rfl

/-! ### Insertion by occupancy -/

theorem ringInsert_of_full {r : TlbRing} (h : r.count.toNat = 16) (e : TlbEntry) :
    ringInsert e r = { r with slots := r.slots.set (ringSlot r 0) e, head := r.head + 1#4 } :=
  if_pos (BitVec.eq_of_toNat_eq h)

theorem ringInsert_of_not_full {r : TlbRing} (h : r.count.toNat < 16) (e : TlbEntry) :
    ringInsert e r =
      { r with slots := r.slots.set (ringSlot r r.count.toNat) e, count := r.count + 1#5 } :=
  if_neg fun hc => by simp [hc] at h

/-- Below capacity, one more does not overflow the 5 bits of `count`. -/
theorem count_succ_toNat {r : TlbRing} (h : r.count.toNat < 16) :
    (r.count + 1#5).toNat = r.count.toNat + 1 := by
  rw [BitVec.toNat_add, BitVec.toNat_ofNat]
  omega

/-- When full, the slot of the oldest entry becomes position 15, the newest, and every other entry moves one
position down. -/
theorem ringToList_ringInsert_of_full {r : TlbRing} (h : r.count.toNat = 16) (e : TlbEntry) :
    ringToList (ringInsert e r) = (ringToList r).tail ++ [e] := by
  rw [ringInsert_of_full h]
  simp only [ringToList, ringSlot_head_succ, h]
  refine List.ext_getElem (by simp) fun i hi _ => ?_
  simp only [List.length_map, List.length_range] at hi
  rcases Nat.lt_or_eq_of_le (Nat.le_of_lt_succ hi) with hlt | rfl
  · have hne : (ringSlot r (i + 1)).val ≠ (ringSlot r 0).val := ringSlot_val_ne (by omega) (by omega)
    simp [List.getElem_append_left, hlt, Vector.getElem_set_ne, hne.symm]
  · have hlast : ringSlot r 16 = ringSlot r 0 := ringSlot_add_sixteen r 0
    simp [hlast]

/-- Below capacity, the new entry takes the slot after the newest, and every live slot stays. -/
theorem ringToList_ringInsert_of_not_full {r : TlbRing} (h : r.count.toNat < 16) (e : TlbEntry) :
    ringToList (ringInsert e r) = ringToList r ++ [e] := by
  have hlive {i : Nat} (hi : i < r.count.toNat) : (ringSlot r r.count.toNat).val ≠ (ringSlot r i).val :=
    ringSlot_val_ne hi (by omega)
  rw [ringInsert_of_not_full h]
  simp only [ringToList, count_succ_toNat h, List.range_succ, List.map_append]
  congr 1
  · refine List.map_congr_left fun i hi => ?_
    exact Vector.getElem_set_ne _ _ (hlive (List.mem_range.1 hi))
  · exact congrArg (fun d => [d]) (Vector.getElem_set_self _)

/-- The insertion on the ring is TLBINS on the sequence, with the ring's 16 slots as the capacity. -/
theorem ringToList_ringInsert {r : TlbRing} (h : r.count.toNat ≤ 16) (e : TlbEntry) :
    ringToList (ringInsert e r) = tlbAppend 16 (ringToList r) e := by
  rcases h.lt_or_eq with hfree | hfull
  · rw [ringToList_ringInsert_of_not_full hfree,
      tlbAppend_of_not_full (by rw [length_ringToList]; exact hfree.ne)]
  · rw [ringToList_ringInsert_of_full hfull, tlbAppend_of_full (by rw [length_ringToList, hfull])]

theorem ringInsert_count_le {r : TlbRing} (h : r.count.toNat ≤ 16) (e : TlbEntry) :
    (ringInsert e r).count.toNat ≤ 16 := by
  rcases h.lt_or_eq with hfree | hfull
  · rw [ringInsert_of_not_full hfree, count_succ_toNat hfree]
    exact hfree
  · rw [ringInsert_of_full hfull]
    exact h

/-- Settles O20: the two branches of the rule, then the insertion and the lookup on the sequence the ring
stands for (`ringToList_ringInsert`, `ringLookup_eq_tlbFind`). -/
theorem ringRefinesSequence : Obligations.RingRefinesSequence := by
  refine ⟨fun r e h => ⟨fun hfull => ?_, fun hfree => ringInsert_of_not_full hfree e,
    ringInsert_count_le h e, ringToList_ringInsert h e, ringLookup_eq_tlbFind r⟩,
    fun slots => ringToList_of_count_zero rfl⟩
  simp only [ringInsert_of_full hfull, ringSlot_zero_val]

end Sys2Proof.Machine
end

section
/-! PROOFS. The page table operations: PTLKUP reads one entry, PTMARK writes one entry
(42_page_table.md R140, R141, R143). -/

namespace Sys2Proof.Machine

/-- PTMARK marks the entry, drives the bus and withdraws a store request. -/
theorem exec_ptmark (page : Page) (frame : Frame) (s : State) :
    exec (.ptmark page frame) s = .next ((s.ptMark page frame).busAnswer .done) := rfl

/-- Settles O21: PTLKUP drives the entry on the bus and leaves the rest of the state; after reset no entry
is valid (`State.ptLookup_reset`). -/
theorem pageTableLookup : Obligations.PageTableLookup := by
  refine ⟨fun s page => ?_, State.ptLookup_reset⟩
  obtain ⟨hop, harg⟩ := Laws.EncodesOpcode.ptlkup page
  exact ⟨rfl, hop, harg.trans (zero_append_eq_setWidth page)⟩

/-- Settles O22: the next state is that of `exec_ptmark`, whose entries are those of `ptLookup_ptMark`; the
code and the operand are those of the encoder's word. -/
theorem pageTableMark : Obligations.PageTableMark := by
  intro s page frame
  obtain ⟨hop, harg⟩ := Laws.EncodesOpcode.ptmark page frame
  refine ⟨(s.ptMark page frame).busAnswer .done, exec_ptmark page frame s, fun q => ?_, rfl, hop, ?_⟩
  · rw [ptLookup_congr (State.busAnswer_pt _ _), ptLookup_ptMark]
  · rw [harg]
    exact zero_append_append_toNat page frame

end Sys2Proof.Machine
end

section
/-! PROOFS. What an XLATE can do: the three leaves of the decision tree that reach step 5, and the next state
each branch ends in (44_translator.md R170, R171, R172, R177). -/

namespace Sys2Proof.Machine

/-- The leaf of the decision tree that XLATE takes for a page, with its two events, the frame it found and the
state before step 5 (44_translator.md R172). -/
inductive XlateLeaf (s : State) (page : Page) : (hit fault : Bool) → Frame → State → Prop
  | tlbHit {f : Frame} (ht : s.tlbLookup page = some f) : XlateLeaf s page true false f s
  | ptHit {f : Frame} (ht : s.tlbLookup page = none) (hp : s.ptLookup page = some f) :
      XlateLeaf s page false false f (s.tlbInsert page f)
  | pageFault {rest : List BsAnswer} (ht : s.tlbLookup page = none) (hp : s.ptLookup page = none)
      (ha : s.bsAnswers = .ok :: rest) (hn : s.nextFrame.toNat < s.config.numFrames) :
      XlateLeaf s page false true (s.nextFrame.setWidth 8)
        ((s.swapped page rest).tlbInsert page (s.nextFrame.setWidth 8))

/-- The next states of an XLATE. -/
inductive XlateNext (addr : Arg) (s : State) : State → Prop
  | refused (hh : s.halted = true) : XlateNext addr s (s.respond (Response.bare .halted addr))
  | waiting (hh : s.halted = false) (ht : s.tlbLookup (pageOf addr) = none)
      (hp : s.ptLookup (pageOf addr) = none) (ha : s.bsAnswers = []) :
      XlateNext addr s (s.awaitStore (pageOf addr))
  | ioError {rest : List BsAnswer} (hh : s.halted = false) (ht : s.tlbLookup (pageOf addr) = none)
      (hp : s.ptLookup (pageOf addr) = none) (ha : s.bsAnswers = .err :: rest) :
      XlateNext addr s ((s.takeAnswer rest).failXlate addr .ioError)
  | capacityExhausted {rest : List BsAnswer} (hh : s.halted = false) (ht : s.tlbLookup (pageOf addr) = none)
      (hp : s.ptLookup (pageOf addr) = none) (ha : s.bsAnswers = .ok :: rest)
      (hn : s.config.numFrames ≤ s.nextFrame.toNat) :
      XlateNext addr s ((s.takeAnswer rest).failXlate addr .capacityExhausted)
  | invalidAddress {hit fault : Bool} {f : Frame} {u : State} (hh : s.halted = false)
      (leaf : XlateLeaf s (pageOf addr) hit fault f u) (hf : u.config.numFrames ≤ f.toNat) :
      XlateNext addr s (u.failXlate addr .invalidAddress)
  | ok {hit fault : Bool} {f : Frame} {u : State} {b : Byte} (hh : s.halted = false)
      (leaf : XlateLeaf s (pageOf addr) hit fault f u) (hf : f.toNat < u.config.numFrames)
      (hb : u.pmByte f (offsetOf addr) = some b) : XlateNext addr s (u.answered addr hit fault f b)

/-- From a leaf, steps 5 to 7 end in InvalidAddress or in success. -/
theorem XlateLeaf.next_of_finishXlate {addr : Arg} {s t u : State} {hit fault : Bool} {f : Frame}
    (hh : s.halted = false) (leaf : XlateLeaf s (pageOf addr) hit fault f u)
    (h : finishXlate addr hit fault f u = .next t) : XlateNext addr s t := by
  rcases finishXlate_cases addr hit fault f u with ⟨hf, hr⟩ | ⟨hf, b, hb, hr⟩ | ⟨-, -, hr⟩
  · cases hr.symm.trans h
    exact .invalidAddress hh leaf hf
  · cases hr.symm.trans h
    exact .ok hh leaf hf hb
  · cases hr.symm.trans h

/-- Every next state of XLATE is one of `XlateNext`: the decision tree, branch by branch. -/
theorem xlateNext_of_execXlate {addr : Arg} {s t : State} (h : execXlate addr s = .next t) :
    XlateNext addr s t := by
  rcases execXlate_cases addr s with ⟨hh, hr⟩ | ⟨hh, f, ht, hr⟩ | ⟨hh, ht, f, hp, hr⟩ | ⟨hh, ht, hp, ha, hr⟩ |
    ⟨hh, ht, hp, rest, ha, hr⟩ | ⟨hh, ht, hp, rest, ha, hn, hr⟩ | ⟨hh, ht, hp, rest, ha, hn, hr⟩
  · cases hr.symm.trans h
    exact .refused hh
  · exact (XlateLeaf.tlbHit ht).next_of_finishXlate hh (hr.symm.trans h)
  · exact (XlateLeaf.ptHit ht hp).next_of_finishXlate hh (hr.symm.trans h)
  · cases hr.symm.trans h
    exact .waiting hh ht hp ha
  · cases hr.symm.trans h
    exact .ioError hh ht hp ha
  · cases hr.symm.trans h
    exact .capacityExhausted hh ht hp ha hn
  · exact (XlateLeaf.pageFault ht hp ha hn).next_of_finishXlate hh (hr.symm.trans h)

/-- An XLATE answered OK went through a leaf and found a byte there: no other branch gives status OK. -/
theorem xlate_ok_cases {addr : Arg} {s t : State} {r : Response} (h : execXlate addr s = .next t)
    (hreq : t.bsReq = none) (hrsp : t.rsp = some r) (hst : r.status = .ok) :
    ∃ hit fault f u, XlateLeaf s (pageOf addr) hit fault f u ∧ u.pmByte f (offsetOf addr) = some r.value ∧
      t = u.answered addr hit fault f r.value ∧ r = okResponse addr hit fault f r.value := by
  cases xlateNext_of_execXlate h with
  | refused => cases hrsp; cases hst
  | waiting => cases hreq
  | ioError => cases hrsp; cases hst
  | capacityExhausted => cases hrsp; cases hst
  | invalidAddress => cases hrsp; cases hst
  | ok hh leaf hf hb => cases hrsp; exact ⟨_, _, _, _, leaf, hb, rfl, rfl⟩

namespace XlateLeaf

variable {s u : State} {page : Page} {hit fault : Bool} {f : Frame}

theorem hit_iff (leaf : XlateLeaf s page hit fault f u) : hit = true ↔ s.tlbLookup page ≠ none := by
  cases leaf with
  | tlbHit ht => simp [ht]
  | ptHit ht hp => simp [ht]
  | pageFault ht hp ha hn => simp [ht]

theorem fault_iff (leaf : XlateLeaf s page hit fault f u) :
    fault = true ↔ s.tlbLookup page = none ∧ s.ptLookup page = none := by
  cases leaf with
  | tlbHit ht => simp [ht]
  | ptHit ht hp => simp [hp]
  | pageFault ht hp ha hn => simp [ht, hp]

theorem tlbLookup_of_hit (leaf : XlateLeaf s page hit fault f u) (h : hit = true) :
    s.tlbLookup page = some f := by
  cases leaf with
  | tlbHit ht => exact ht
  | ptHit ht hp => cases h
  | pageFault ht hp ha hn => cases h

/-- After a TLB miss the page table holds the frame: it held it before, or SWAPIN has marked it. -/
theorem ptLookup_of_miss (leaf : XlateLeaf s page hit fault f u) (h : hit = false) :
    u.ptLookup page = some f := by
  cases leaf with
  | tlbHit ht => cases h
  | ptHit ht hp => rw [ptLookup_congr (State.tlbInsert_pt s page f), hp]
  | pageFault ht hp ha hn => rw [ptLookup_congr (State.tlbInsert_pt _ page _), ptLookup_swapped, if_pos rfl]

end XlateLeaf

end Sys2Proof.Machine
end

section
/-! PROOFS. The response of an XLATE that is refused and of one that succeeds, and the re-read of the page table
after SWAPIN (44_translator.md R170, R175, R176). -/

namespace Sys2Proof.Machine

theorem pageOf_toNat (addr : Arg) : (pageOf addr).toNat = addr.toNat / 256 % 256 := by
  rw [pageOf, BitVec.extractLsb'_toNat, Nat.shiftRight_eq_div_pow]

theorem offsetOf_toNat (addr : Arg) : (offsetOf addr).toNat = addr.toNat % 256 := by
  rw [offsetOf, BitVec.extractLsb'_toNat, Nat.shiftRight_zero]

/-- A halted block answers XLATE before it decodes the address. -/
theorem execXlate_of_halted {s : State} (h : s.halted = true) (addr : Arg) :
    execXlate addr s = .next (s.respond (Response.bare .halted addr)) := if_pos h

/-- Settles O32: an XLATE answered OK went through a leaf (`xlate_ok_cases`), and the leaf gives the frame and
the two events. -/
theorem xlateResponseFields : Obligations.XlateResponseFields := by
  intro s t addr r h hreq hrsp hst
  obtain ⟨hit, fault, f, u, leaf, hb, rfl, hr⟩ := xlate_ok_cases h hreq hrsp hst
  rw [hr]
  exact ⟨rfl, rfl, rfl, pageOf_toNat addr, offsetOf_toNat addr,
    ⟨f, leaf.tlbLookup_of_hit, leaf.ptLookup_of_miss, physAddr_toNat f (offsetOf addr)⟩, hb, leaf.hit_iff,
    leaf.fault_iff⟩

/-- Settles O30: HALTED is tested first (`execXlate_of_halted`), and RDCSR has two answers, neither of which is
Halted (`execRdcsr_cases`). -/
theorem xlateWhileHaltedIsRefused : Obligations.XlateWhileHaltedIsRefused := by
  refine ⟨fun s addr h => execXlate_of_halted h addr, fun s arg => ?_, rfl⟩
  rcases execRdcsr_cases arg s with ⟨v, -, hr⟩ | ⟨-, hr⟩
  · exact ⟨_, _, hr, rfl, by simp [Response.bare]⟩
  · exact ⟨_, _, hr, rfl, by simp [Response.bare]⟩

/-- Settles O35: of the four ends of SWAPIN only one loads the page, and it has marked it with the frame it
returns (`ptLookup_swapped`). -/
theorem reReadGivesTheFrameOfSwapIn : Obligations.ReReadGivesTheFrameOfSwapIn := by
  intro s t page f h
  rcases swapIn_cases page s with ⟨-, hs⟩ | ⟨rest, -, hs⟩ | ⟨rest, -, -, hs⟩ | ⟨rest, -, -, hs⟩
  · cases hs.symm.trans h
  · cases hs.symm.trans h
  · cases hs.symm.trans h
  · cases hs.symm.trans h
    rw [ptLookup_swapped, if_pos rfl]

end Sys2Proof.Machine
end

section
/-! PROOFS. The counters: advanced by an XLATE answered OK, kept by every other end of an operation
(44_translator.md R178). -/

namespace Sys2Proof.Machine

/-- The three counters of `t` are those of `s`. -/
def SameCounters (s t : State) : Prop :=
  t.totalCount = s.totalCount ∧ t.faultCount = s.faultCount ∧ t.hitCount = s.hitCount

/-- Up to step 5 no counter changes, whichever leaf is taken. -/
theorem XlateLeaf.sameCounters {s u : State} {page : Page} {hit fault : Bool} {f : Frame}
    (leaf : XlateLeaf s page hit fault f u) : SameCounters s u := by
  cases leaf with
  | tlbHit ht => exact ⟨rfl, rfl, rfl⟩
  | ptHit ht hp => exact ⟨rfl, rfl, rfl⟩
  | pageFault ht hp ha hn => exact ⟨rfl, rfl, rfl⟩

/-- RDCSR changes no counter. -/
theorem execRdcsr_sameCounters {arg : Arg} {s t : State} (h : execRdcsr arg s = .next t) : SameCounters s t := by
  rcases execRdcsr_cases arg s with ⟨v, -, hr⟩ | ⟨-, hr⟩
  · cases hr.symm.trans h
    exact ⟨rfl, rfl, rfl⟩
  · cases hr.symm.trans h
    exact ⟨rfl, rfl, rfl⟩

/-- SWAPIN on its own changes no counter: a page fault is counted at step 7 of XLATE. -/
theorem execSwapin_sameCounters {page : Page} {s t : State} (h : execSwapin page s = .next t) :
    SameCounters s t := by
  unfold execSwapin at h
  rcases swapIn_cases page s with ⟨-, hs⟩ | ⟨rest, -, hs⟩ | ⟨rest, -, -, hs⟩ | ⟨rest, -, -, hs⟩ <;> rw [hs] at h
  all_goals
    cases h
    exact ⟨rfl, rfl, rfl⟩

/-- RDBYTE on its own changes no counter. -/
theorem execRdbyte_sameCounters {frame : Frame} {offset : Offset} {s t : State}
    (h : execRdbyte frame offset s = .next t) : SameCounters s t := by
  unfold execRdbyte at h
  rcases readByte_cases s frame offset with ⟨-, hr⟩ | ⟨-, b, -, hr⟩ | ⟨-, -, hr⟩ <;> rw [hr] at h
  all_goals cases h
  · exact ⟨rfl, rfl, rfl⟩
  · exact ⟨rfl, rfl, rfl⟩

/-- The counters after an XLATE, by what it ends in. -/
theorem execXlate_counters {addr : Arg} {s t : State} (h : execXlate addr s = .next t) :
    (t.bsReq ≠ none → SameCounters s t) ∧
    (t.bsReq = none → ∃ r, t.rsp = some r ∧ (r.status ≠ .ok → SameCounters s t) ∧
      (r.status = .ok →
        t.totalCount.toNat = min (s.totalCount.toNat + 1) countMax ∧
        t.faultCount.toNat = min (s.faultCount.toNat + r.fault.toNat) countMax ∧
        t.hitCount.toNat = min (s.hitCount.toNat + r.hit.toNat) countMax)) := by
  cases xlateNext_of_execXlate h with
  | refused => exact ⟨fun _ => ⟨rfl, rfl, rfl⟩, fun _ => ⟨_, rfl, fun _ => ⟨rfl, rfl, rfl⟩, nofun⟩⟩
  | waiting => exact ⟨fun _ => ⟨rfl, rfl, rfl⟩, nofun⟩
  | ioError => exact ⟨fun _ => ⟨rfl, rfl, rfl⟩, fun _ => ⟨_, rfl, fun _ => ⟨rfl, rfl, rfl⟩, nofun⟩⟩
  | capacityExhausted => exact ⟨fun _ => ⟨rfl, rfl, rfl⟩, fun _ => ⟨_, rfl, fun _ => ⟨rfl, rfl, rfl⟩, nofun⟩⟩
  | invalidAddress hh leaf hf =>
    exact ⟨fun _ => leaf.sameCounters, fun _ => ⟨_, rfl, fun _ => leaf.sameCounters, nofun⟩⟩
  | ok hh leaf hf hb =>
    obtain ⟨htotal, hfault, hhit⟩ := leaf.sameCounters
    refine ⟨fun hreq => absurd rfl hreq, fun _ => ⟨_, rfl, fun hst => absurd rfl hst, fun _ => ⟨?_, ?_, ?_⟩⟩⟩
    · rw [State.answered_totalCount, htotal, satAdd_toNat, Bool.toNat_true]
    · rw [State.answered_faultCount, hfault, satAdd_toNat]; rfl
    · rw [State.answered_hitCount, hhit, satAdd_toNat]; rfl

/-- Settles O34: XLATE by the branch it ends in (`execXlate_counters`); every other operation drives its outputs
and writes no counter. -/
theorem countersChangeOnlyOnSuccess : Obligations.CountersChangeOnlyOnSuccess := by
  intro i s t h
  cases i with
  | xlate addr => exact execXlate_counters h
  | rdcsr arg => exact execRdcsr_sameCounters h
  | decode addr => cases h; exact ⟨rfl, rfl, rfl⟩
  | tlblkup page => cases h; exact ⟨rfl, rfl, rfl⟩
  | tlbins page frame => cases h; exact ⟨rfl, rfl, rfl⟩
  | ptlkup page => cases h; exact ⟨rfl, rfl, rfl⟩
  | ptmark page frame => cases h; exact ⟨rfl, rfl, rfl⟩
  | swapin page => exact execSwapin_sameCounters h
  | rdbyte frame offset => exact execRdbyte_sameCounters h

end Sys2Proof.Machine
end

section
/-! PROOFS. RDCSR: the number of the register, and the value of each register as a number (10_state.md R37 to
R40, 44_translator.md R180). -/

namespace Sys2Proof.Machine

/-! ### The register number -/

theorem csrOf_toNat (arg : Arg) : (csrOf arg).toNat = arg.toNat % 16 := by
  rw [csrOf, BitVec.extractLsb'_toNat, Nat.shiftRight_zero]

theorem csrOf_eq {arg : Arg} {c : BitVec 4} (h : arg.toNat % 16 = c.toNat) : csrOf arg = c :=
  BitVec.eq_of_toNat_eq ((csrOf_toNat arg).trans h)

/-- The defined registers are 0 to 6 (R37). -/
theorem csr_cases (c : BitVec 4) :
    c = 0#4 ∨ c = 1#4 ∨ c = 2#4 ∨ c = 3#4 ∨ c = 4#4 ∨ c = 5#4 ∨ c = 6#4 ∨ 7 ≤ c.toNat := by
  revert c; decide

/-- A register has a value exactly when it is defined. -/
theorem State.csrRead_eq_none_iff (s : State) (c : BitVec 4) : s.csrRead c = none ↔ 7 ≤ c.toNat := by
  unfold State.csrRead
  split
  case h_8 =>
    have hc := csr_cases c
    exact iff_of_true rfl (by tauto)
  all_goals simp

/-! ### The values of the registers -/

theorem State.csrStatus_toNat (s : State) : s.csrStatus.toNat = s.cause.toNat * 2 + s.halted.toNat := by
  have hcause := s.cause.isLt
  have hhalted := Bool.toNat_lt s.halted
  rw [State.csrStatus, BitVec.toNat_setWidth, append_toNat, BitVec.toNat_ofBool]
  omega

/-- Where HALTED and CAUSE are well formed, STATUS reads as 0 or as one of the three errors (R38, R48). -/
theorem State.csrStatus_of_haltInv {s : State} (h : HaltInv s) :
    s.csrStatus = 0#32 ∨ s.csrStatus = 3#32 ∨ s.csrStatus = 5#32 ∨ s.csrStatus = 7#32 := by
  unfold State.csrStatus
  cases hh : s.halted with
  | false =>
    rw [h.running hh]
    decide
  | true =>
    obtain ⟨e, he⟩ := h.stopped hh
    rw [he]
    cases e <;> decide

theorem State.csrAlloc_toNat (s : State) : s.csrAlloc.toNat = s.nextFrame.toNat := by
  rw [State.csrAlloc, BitVec.toNat_setWidth_of_le (by decide)]

/-- TLBCNT is the occupancy where that fits its 5 bits. -/
theorem State.csrTlbCount_toNat {s : State} (h : s.tlb.length < 32) : s.csrTlbCount.toNat = s.tlb.length := by
  rw [State.csrTlbCount, BitVec.toNat_setWidth_of_le (by decide), BitVec.toNat_ofNat, Nat.mod_eq_of_lt h]

/-- On this hardware the TLB holds at most 16 entries, so TLBCNT shows its occupancy. -/
theorem State.csrTlbCount_le_sixteen {s : State} (h : TlbInv s) (hc : s.config = Config.thisHardware) :
    s.csrTlbCount.toNat ≤ 16 := by
  have hlen : s.tlb.length ≤ 16 := by
    have := h.length_le
    rwa [hc] at this
  rw [State.csrTlbCount_toNat (by omega)]
  exact hlen

/-- CONFIG is `NUM_FRAMES` from bit 8 up and `TLB_CAP` in bits [4:0], where that fits. -/
theorem State.csrConfig_toNat {s : State} (h : s.config.tlbCap < 32) :
    s.csrConfig.toNat = s.config.numFrames * 256 + s.config.tlbCap := by
  have hframes := s.config.numFrames_le
  rw [State.csrConfig, BitVec.toNat_setWidth_of_le (by decide), append_toNat, append_toNat]
  simp only [BitVec.toNat_ofNat]
  omega

theorem State.csrConfig_of_thisHardware {s : State} (h : s.config = Config.thisHardware) :
    s.csrConfig = 0x00010010#32 := by
  have hreset : s.csrConfig = State.reset.csrConfig := by rw [State.csrConfig, h]; rfl
  rw [hreset, State.csrConfig_reset]

/-! ### The operation -/

theorem execRdcsr_of_some {arg : Arg} {s : State} {v : Count} (h : s.csrRead (csrOf arg) = some v) :
    execRdcsr arg s = .next (s.respond { Response.bare .ok arg with data := v }) := by
  rw [execRdcsr, h]

theorem execRdcsr_of_none {arg : Arg} {s : State} (h : s.csrRead (csrOf arg) = none) :
    execRdcsr arg s = .next (s.answerIllegal arg) := by
  rw [execRdcsr, h]

/-- Settles O36: RDCSR answers what `csrRead` gives for `csrOf arg`, a value exactly for 0 to 6
(`State.csrRead_eq_none_iff`); the value of each register is that of its own lemma. -/
theorem rdcsrReadsTheRegister : Obligations.RdcsrReadsTheRegister := by
  intro s arg
  obtain ⟨hop, harg⟩ := Laws.EncodesOpcode.rdcsr arg
  have hnone : s.csrRead (csrOf arg) = none ↔ 7 ≤ arg.toNat % 16 := by
    rw [State.csrRead_eq_none_iff, csrOf_toNat]
  refine ⟨fun hle => ?_, fun hge => execRdcsr_of_none (hnone.2 hge), hop, harg⟩
  obtain ⟨v, hv⟩ := Option.ne_none_iff_exists'.1 (fun hn => absurd (hnone.1 hn) (by omega))
  have value {c : BitVec 4} {w : Count} (hc : arg.toNat % 16 = c.toNat) (hw : s.csrRead c = some w) : v = w :=
    Option.some.inj (hv.symm.trans (csrOf_eq hc ▸ hw))
  refine ⟨v, execRdcsr_of_some hv, fun h => ?_, fun h hinv => ?_, fun h => value (c := 1#4) h rfl,
    fun h => value (c := 2#4) h rfl, fun h => value (c := 3#4) h rfl, fun h => ?_, fun h hlen => ?_,
    fun h hinv hconf => ?_, fun h hcap => ?_, fun h hconf => ?_⟩
  · rw [value (c := 0#4) h rfl, State.csrStatus_toNat]
  · rw [value (c := 0#4) h rfl]
    exact State.csrStatus_of_haltInv hinv
  · rw [value (c := 4#4) h rfl, State.csrAlloc_toNat]
  · rw [value (c := 5#4) h rfl, State.csrTlbCount_toNat hlen]
  · rw [value (c := 5#4) h rfl]
    exact State.csrTlbCount_le_sixteen hinv hconf
  · rw [value (c := 6#4) h rfl, State.csrConfig_toNat hcap]
  · rw [value (c := 6#4) h rfl, State.csrConfig_of_thisHardware hconf]

end Sys2Proof.Machine
end

section
/-! PROOFS. A host word and its step: an accepted operation is run and its outcome retired, and retiring keeps
both ports (30_encoding.md R80, R87; 70_reset_and_hazards.md R241). -/

namespace Sys2Proof.Machine

@[simp] theorem State.retire_rsp (s : State) (rest : List Input) : (s.retire rest).rsp = s.rsp := by
  rcases s.retire_cases rest with h | h <;> rw [h]

@[simp] theorem State.retire_bsReq (s : State) (rest : List Input) : (s.retire rest).bsReq = s.bsReq := by
  rcases s.retire_cases rest with h | h <;> rw [h]

/-- A command that was answered leaves the input at once. -/
theorem State.retire_respond (s : State) (r : Response) (rest : List Input) :
    (s.respond r).retire rest = { s with rsp := some r, inputs := rest, bsReq := none } := by
  rw [State.retire_of_answered (State.respond_bsReq s r)]
  rfl

/-- What retires to a next state was one. -/
theorem retireOutcome_eq_next {rest : List Input} {o : Host.Outcome State Fault Refusal} {t : State}
    (h : retireOutcome rest o = .next t) : ∃ u, o = .next u ∧ t = u.retire rest := by
  cases o with
  | next u => cases h; exact ⟨u, rfl, rfl⟩
  | fault => cases h
  | refused => cases h

/-- An accepted word is run and retired. -/
theorem step_of_host_ok {s : State} {w : Word} {rest : List Input} {i : Instr}
    (hin : s.inputs = .host w :: rest) (ha : s.abandoned rest = false) (hd : hostDecode w = .ok i) :
    step s = retireOutcome rest (exec i s) := by
  simp [step, State.accept_host hin ha, acceptHost, hd]

theorem hostDecode_of_op_xlate {w : Word} (h : opOf w = 1#4) : hostDecode w = .ok (.xlate (argOf w)) := by
  simp [hostDecode, decode, h, Instr.hostIssuable]

end Sys2Proof.Machine
end

section
/-! PROOFS. A halted block: each of its steps is idle or gives one answer on the response port
(60_exceptions.md R208). -/

namespace Sys2Proof.Machine

/-- Driven by the host, a halted block does nothing or answers the command: XLATE is refused, RDCSR reads, and
an illegal word is told so. -/
theorem step_of_halted {s t : State} (hh : s.halted = true) (hd : HostDriven s) (hn : NoReset s)
    (h : step s = .next t) : t = s ∨ ∃ r rest, t = (s.respond r).retire rest := by
  rcases step_cases s with ⟨-, hs⟩ | ⟨rest, ha, -⟩ | ⟨w, rest, -, -, -, hs⟩ | ⟨w, rest, addr, -, -, hs⟩ |
    ⟨w, rest, arg, -, -, hs⟩ | ⟨w, rest, i, hin, -, -⟩ | ⟨w, rest, -, -, -, hs⟩
  · cases hs.symm.trans h
    exact .inl rfl
  · exact absurd ha (hn rest)
  · cases hs.symm.trans h
    exact .inr ⟨_, rest, rfl⟩
  · rw [execXlate_of_halted hh] at hs
    cases hs.symm.trans h
    exact .inr ⟨_, rest, rfl⟩
  · rcases execRdcsr_cases arg s with ⟨v, -, hr⟩ | ⟨-, hr⟩
    all_goals
      rw [hr] at hs
      cases hs.symm.trans h
      exact .inr ⟨_, rest, rfl⟩
  · exact absurd (hin ▸ List.mem_cons_self) (hd w)
  · cases hs.symm.trans h

/-- Settles O46: a step of a halted block is idle or one answer (`step_of_halted`), and an answer writes the
ports and the inputs only (`State.retire_respond`). -/
theorem haltIsFinal : Obligations.HaltIsFinal := by
  intro s t hh hd hn h
  rcases step_of_halted hh hd hn h with rfl | ⟨r, rest, ht⟩
  · rfl
  · rw [ht, State.retire_respond]

end Sys2Proof.Machine
end

section
/-! PROOFS. The order in which XLATE tests its conditions, as one function of the state, and the status of every
answer read off it (60_exceptions.md R210). -/

namespace Sys2Proof.Machine

/-- The status of an XLATE whose frame is known: the range check of step 5. -/
def rangeStatus (s : State) (f : Frame) : Status :=
  if s.config.numFrames ≤ f.toNat then .error .invalidAddress else .ok

/-- The status of an XLATE whose page is in neither table: the store's answer, then the free frames; none while
the store has not answered. -/
def pageFaultStatus (s : State) : Option Status :=
  s.bsAnswers.head?.map fun
    | .err => .error .ioError
    | .ok => if s.config.numFrames ≤ s.nextFrame.toNat then .error .capacityExhausted else .ok

/-- The status of an XLATE by the first condition of R210 that holds; none while it waits for the store. -/
def xlateStatus (s : State) (page : Page) : Option Status :=
  if s.halted then some .halted
  else
    match (s.tlbLookup page).or (s.ptLookup page) with
    | some f => some (rangeStatus s f)
    | none => pageFaultStatus s

section
variable {s u : State} {page : Page}

/-- On a TLB miss the page table decides. -/
theorem tables_of_tlb_miss {o : Option Frame} (ht : s.tlbLookup page = none) (hp : s.ptLookup page = o) :
    (s.tlbLookup page).or (s.ptLookup page) = o := by
  rw [ht, hp, Option.none_or]

theorem xlateStatus_of_halted (hh : s.halted = true) : xlateStatus s page = some .halted := if_pos hh

theorem xlateStatus_of_frame {f : Frame} (hh : s.halted = false)
    (hf : (s.tlbLookup page).or (s.ptLookup page) = some f) : xlateStatus s page = some (rangeStatus s f) := by
  simp [xlateStatus, hh, hf]

theorem xlateStatus_of_pageFault (hh : s.halted = false)
    (hf : (s.tlbLookup page).or (s.ptLookup page) = none) : xlateStatus s page = pageFaultStatus s := by
  simp [xlateStatus, hh, hf]

theorem rangeStatus_of_ge {f : Frame} (h : s.config.numFrames ≤ f.toNat) :
    rangeStatus s f = .error .invalidAddress := if_pos h

theorem rangeStatus_of_lt {f : Frame} (h : f.toNat < s.config.numFrames) : rangeStatus s f = .ok :=
  if_neg (Nat.not_le.2 h)

theorem pageFaultStatus_of_err (ha : s.bsAnswers.head? = some .err) :
    pageFaultStatus s = some (.error .ioError) := by
  simp [pageFaultStatus, ha]

theorem pageFaultStatus_of_full (ha : s.bsAnswers.head? = some .ok)
    (hn : s.config.numFrames ≤ s.nextFrame.toNat) : pageFaultStatus s = some (.error .capacityExhausted) := by
  simp [pageFaultStatus, ha, hn]

theorem pageFaultStatus_of_free (ha : s.bsAnswers.head? = some .ok)
    (hn : s.nextFrame.toNat < s.config.numFrames) : pageFaultStatus s = some .ok := by
  simp [pageFaultStatus, ha, hn]

/-- Past the tables and the fault service, the status is that of the range check: the frame SWAPIN takes is in
range. -/
theorem XlateLeaf.xlateStatus_eq {hit fault : Bool} {f : Frame} (hh : s.halted = false)
    (leaf : XlateLeaf s page hit fault f u) : xlateStatus s page = some (rangeStatus u f) := by
  cases leaf with
  | tlbHit ht => exact xlateStatus_of_frame hh (by rw [ht, Option.some_or])
  | ptHit ht hp => exact xlateStatus_of_frame hh (tables_of_tlb_miss ht hp)
  | pageFault ht hp ha hn =>
    have hf := (nextFrame_setWidth_toNat hn).trans_lt hn
    rw [xlateStatus_of_pageFault hh (tables_of_tlb_miss ht hp), pageFaultStatus_of_free (by rw [ha]; rfl) hn,
      rangeStatus_of_lt (by simpa using hf)]

end

/-- The answer of an XLATE has the status the order of R210 gives. -/
theorem XlateNext.xlateStatus_eq {addr : Arg} {s u : State} {r : Response} (hx : XlateNext addr s u)
    (hreq : u.bsReq = none) (hrsp : u.rsp = some r) : xlateStatus s (pageOf addr) = some r.status := by
  cases hx with
  | refused hh => cases hrsp; exact xlateStatus_of_halted hh
  | waiting => cases hreq
  | ioError hh ht hp ha =>
    cases hrsp
    rw [xlateStatus_of_pageFault hh (tables_of_tlb_miss ht hp), pageFaultStatus_of_err (by rw [ha]; rfl)]
    rfl
  | capacityExhausted hh ht hp ha hn =>
    cases hrsp
    rw [xlateStatus_of_pageFault hh (tables_of_tlb_miss ht hp), pageFaultStatus_of_full (by rw [ha]; rfl) hn]
    rfl
  | invalidAddress hh leaf hf => cases hrsp; rw [leaf.xlateStatus_eq hh, rangeStatus_of_ge hf]; rfl
  | ok hh leaf hf hb => cases hrsp; rw [leaf.xlateStatus_eq hh, rangeStatus_of_lt hf]; rfl

/-- The step of an XLATE word, when it is answered, gives that status. -/
theorem status_of_xlate_word {s t : State} {w : Word} {rest : List Input} {r : Response}
    (hin : s.inputs = .host w :: rest) (hidle : s.bsReq = none) (h : step s = .next t) (hreq : t.bsReq = none)
    (hrsp : t.rsp = some r) (hop : opOf w = 1#4) : xlateStatus s (pageOf (argOf w)) = some r.status := by
  rw [step_of_host_ok hin (State.abandoned_of_idle hidle rest) (hostDecode_of_op_xlate hop)] at h
  obtain ⟨u, hu, rfl⟩ := retireOutcome_eq_next h
  rw [State.retire_bsReq] at hreq
  rw [State.retire_rsp] at hrsp
  exact (xlateNext_of_execXlate hu).xlateStatus_eq hreq hrsp

/-- The answer to an illegal word says so. -/
theorem status_of_illegal_word {s t : State} {w : Word} {rest : List Input} {r : Response}
    (hin : s.inputs = .host w :: rest) (hidle : s.bsReq = none) (h : step s = .next t) (hrsp : t.rsp = some r)
    (hw : IllegalWord w) : r.status = .illegalCommand := by
  obtain ⟨hs, -⟩ := illegalWordsAreAnsweredIllegalCommand s w rest hin hidle hw
  cases hs.symm.trans h
  cases hrsp
  rfl

/-- Settles O47: an illegal word is answered so whatever the state; an XLATE has the status `xlateStatus` gives
(`status_of_xlate_word`), and each clause is one branch of that function. -/
theorem priorityOfConditions : Obligations.PriorityOfConditions := by
  intro s t w rest r hin hidle h hreq hrsp page frame
  have status {st : Status} (hop : opOf w = 1#4) (hst : xlateStatus s page = some st) : r.status = st :=
    Option.some.inj ((status_of_xlate_word hin hidle h hreq hrsp hop).symm.trans hst)
  refine ⟨status_of_illegal_word hin hidle h hrsp, fun hop hh => ?_, fun hop hh hf ha => ?_,
    fun hop hh hf ha hn => ?_, fun f hop hh hf hn => ?_, fun hop hh hf ha hn => ?_, fun f hop hh hf hn => ?_⟩
  · exact status hop (xlateStatus_of_halted hh)
  · exact status hop ((xlateStatus_of_pageFault hh hf).trans (pageFaultStatus_of_err ha))
  · exact status hop ((xlateStatus_of_pageFault hh hf).trans (pageFaultStatus_of_full ha hn))
  · exact (status hop (xlateStatus_of_frame hh hf)).trans (rangeStatus_of_ge hn)
  · exact status hop ((xlateStatus_of_pageFault hh hf).trans (pageFaultStatus_of_free ha hn))
  · exact (status hop (xlateStatus_of_frame hh hf)).trans (rangeStatus_of_lt hn)

end Sys2Proof.Machine
end

section
/-! PROOFS. The operation a command word stands for, and the round trip through the encoder
(30_encoding.md R81, R84, R85). -/

namespace Sys2Proof.Machine

/-! ### The remaining operation codes -/

theorem decode_xlate {w : Word} (h : opOf w = 1#4) : decode w = .ok (.xlate (argOf w)) := by
  simp [decode, h]

theorem decode_decode {w : Word} (h : opOf w = 4#4) : decode w = .ok (.decode (argOf w)) := by
  simp [decode, h]

/-- RDCSR of a defined register. -/
theorem decode_rdcsr {w : Word} (h : opOf w = 2#4) (hc : (csrOf (argOf w)).toNat ≤ 6) :
    decode w = .ok (.rdcsr (argOf w)) := by
  have hwf : (Instr.rdcsr (argOf w)).wellFormed = true := decide_eq_true (BitVec.le_def.2 hc)
  simp [decode, h, hwf]

/-- RDCSR of a reserved register (R87). -/
theorem decode_rdcsr_reserved {w : Word} (h : opOf w = 2#4) (hc : 7 ≤ (csrOf (argOf w)).toNat) :
    decode w = .reject (.reservedCsr (csrOf (argOf w))) := by
  have hwf : (Instr.rdcsr (argOf w)).wellFormed = false :=
    decide_eq_false (fun hle => absurd (BitVec.le_def.1 hle) (by simpa [csrOf] using Nat.not_le.2 hc))
  simp [decode, h, hwf, csrOf]

/-- The reserved codes are 0x0, 0x3 and 0xB to 0xF (R84). -/
theorem decode_reserved {w : Word} (h : opOf w = 0#4 ∨ opOf w = 3#4 ∨ 11#4 ≤ opOf w) :
    decode w = .reject (.reservedOp (opOf w)) := by
  unfold decode
  dsimp only
  split
  case h_10 => rfl
  all_goals
    next hop =>
    rw [hop] at h
    exact absurd h (by decide)

/-! ### The two ports -/

theorem hostDecode_of_decode {w : Word} {i : Instr} (h : decode w = .ok i) (hi : i.hostIssuable = true) :
    hostDecode w = .ok i := by
  simp [hostDecode, h, hi]

theorem busDecode_of_decode {w : Word} {i : Instr} (h : decode w = .ok i) (hi : i.hostIssuable = false) :
    busDecode w = .ok i := by
  simp [busDecode, h, hi]

/-! ### The fields of a word as numbers -/

theorem opOf_toNat (w : Word) : (opOf w).toNat = w.toNat / 4294967296 := by
  have hw := w.isLt
  rw [opOf, BitVec.extractLsb'_toNat, Nat.shiftRight_eq_div_pow]
  omega

theorem argOf_toNat (w : Word) : (argOf w).toNat = w.toNat % 4294967296 := by
  rw [argOf, BitVec.extractLsb'_toNat, Nat.shiftRight_zero]

theorem argHigh_toNat (a : Arg) : (argHigh a).toNat = a.toNat / 256 % 256 := pageOf_toNat a

theorem argLow_toNat (a : Arg) : (argLow a).toNat = a.toNat % 256 := offsetOf_toNat a

/-! ### The round trip -/

/-- The encoder puts code and operand where the decoder reads them. -/
theorem encode_fields (i : Instr) : opOf (encode i) = i.opcode ∧ argOf (encode i) = i.operand :=
  Laws.EncodesOpcode.fields_of_append _ _

theorem argLow_one_field (p : BitVec 8) : argLow (0#24 ++ p : BitVec 32) = p :=
  BitVec.extractLsb'_append_eq_right

theorem argLow_two_fields (p f : BitVec 8) : argLow (0#16 ++ p ++ f : BitVec 32) = f :=
  BitVec.extractLsb'_append_eq_right

theorem argHigh_two_fields (p f : BitVec 8) : argHigh (0#16 ++ p ++ f : BitVec 32) = p := by
  have hp := p.isLt
  have hf := f.isLt
  apply BitVec.eq_of_toNat_eq
  rw [argHigh_toNat, zero_append_append_toNat]
  omega

theorem decode_encode {i : Instr} (h : i.wellFormed = true) : decode (encode i) = .ok i := by
  obtain ⟨hop, harg⟩ := encode_fields i
  cases i with
  | xlate addr => rw [decode_xlate hop, harg]; rfl
  | rdcsr arg =>
    have hc : (csrOf (argOf (encode (.rdcsr arg)))).toNat ≤ 6 := by
      rw [harg]
      exact BitVec.le_def.1 (of_decide_eq_true h)
    rw [decode_rdcsr hop hc, harg]
    rfl
  | decode addr => rw [decode_decode hop, harg]; rfl
  | tlblkup page => rw [decode_tlblkup hop, harg, Instr.operand, argLow_one_field]
  | tlbins page frame =>
    rw [decode_tlbins hop, harg, Instr.operand, argHigh_two_fields, argLow_two_fields]
  | ptlkup page => rw [decode_ptlkup hop, harg, Instr.operand, argLow_one_field]
  | ptmark page frame =>
    rw [decode_ptmark hop, harg, Instr.operand, argHigh_two_fields, argLow_two_fields]
  | swapin page => rw [decode_swapin hop, harg, Instr.operand, argLow_one_field]
  | rdbyte frame offset =>
    rw [decode_rdbyte hop, harg, Instr.operand, argHigh_two_fields, argLow_two_fields]

/-- Settles O1: the decoder reads back the code and the fields the encoder wrote (`decode_encode`), and each port
hands on the operations issued there. -/
theorem decodeEncodeRoundTrip : Obligations.DecodeEncodeRoundTrip := fun _ h =>
  ⟨decode_encode h, hostDecode_of_decode (decode_encode h), busDecode_of_decode (decode_encode h)⟩

/-- Settles O2: the operation by its code (`decode_xlate` to `decode_reserved`), with the code and the fields as
numbers. -/
theorem operandLayouts : Obligations.OperandLayouts := by
  intro w op arg high low
  have hop {n : Nat} (h : op = n) : opOf w = BitVec.ofNat 4 n :=
    BitVec.eq_of_toNat_eq (by rw [opOf_toNat, BitVec.toNat_ofNat, ← h]; have := w.isLt; omega)
  have harg : BitVec.ofNat 32 arg = argOf w :=
    BitVec.eq_of_toNat_eq (by rw [argOf_toNat, BitVec.toNat_ofNat]; omega)
  have hhigh : high = argHigh (argOf w) :=
    BitVec.eq_of_toNat_eq (by rw [argHigh_toNat, argOf_toNat, BitVec.toNat_ofNat]; omega)
  have hlow : low = argLow (argOf w) :=
    BitVec.eq_of_toNat_eq (by rw [argLow_toNat, argOf_toNat, BitVec.toNat_ofNat]; omega)
  have hcsr : (csrOf (argOf w)).toNat = arg % 16 := by rw [csrOf_toNat, argOf_toNat]
  have hcsr' : csrOf (argOf w) = BitVec.ofNat 4 (arg % 16) :=
    BitVec.eq_of_toNat_eq (by rw [hcsr, BitVec.toNat_ofNat]; omega)
  rw [harg, hhigh, hlow]
  refine ⟨fun h => decode_xlate (hop h), fun h hc => decode_rdcsr (hop h) (by omega), hcsr',
    fun h hc => hcsr' ▸ decode_rdcsr_reserved (hop h) (by omega), fun h => decode_decode (hop h),
    fun h => decode_tlblkup (hop h), fun h => decode_tlbins (hop h), fun h => decode_ptlkup (hop h),
    fun h => decode_ptmark (hop h), fun h => decode_swapin (hop h), fun h => decode_rdbyte (hop h), fun h => ?_⟩
  rw [← hop rfl]
  refine decode_reserved ?_
  rcases h with h | h | h
  · exact .inl (hop h)
  · exact .inr (.inl (hop h))
  · exact .inr (.inr (BitVec.le_def.2 (by rw [opOf_toNat]; exact h)))

/-- Settles O3: codes 1 and 2 by their decoder lemmas, an illegal word by `hostDecode_of_illegalWord`. -/
theorem hostPortClassifiesEveryWord : Obligations.HostPortClassifiesEveryWord := by
  intro w
  refine ⟨hostDecode_of_op_xlate, fun h hc => ?_, hostDecode_of_illegalWord, ?_⟩
  · exact hostDecode_of_decode (decode_rdcsr h (by rw [csrOf_argOf_toNat]; exact hc)) rfl
  · unfold IllegalWord
    rcases Nat.lt_or_ge 6 (w.toNat % 16) with hc | hc
    · tauto
    · tauto

end Sys2Proof.Machine
end

section
/-! PROOFS. Words the internal bus has no meaning for, sample words, and the address fields as numbers
(30_encoding.md R84, R85; 40_address_decoder.md R110). -/

namespace Sys2Proof.Machine

/-- The bus hands on what decodes to a micro-operation, and nothing else. -/
theorem busDecode_reject_of_op {w : Word}
    (h : opOf w = 1#4 ∨ opOf w = 2#4 ∨ opOf w = 0#4 ∨ opOf w = 3#4 ∨ 11#4 ≤ opOf w) :
    ∃ r, busDecode w = .reject r := by
  rcases h with h | h | h
  · exact ⟨_, by rw [busDecode, decode_xlate h]; rfl⟩
  · rcases Nat.lt_or_ge (csrOf (argOf w)).toNat 7 with hc | hc
    · exact ⟨_, by rw [busDecode, decode_rdcsr h (by omega)]; rfl⟩
    · exact ⟨_, by rw [busDecode, decode_rdcsr_reserved h hc]⟩
  · exact ⟨_, by rw [busDecode, decode_reserved h]⟩

/-- Settles O12: the bus rejects the word (`busDecode_reject_of_op`), and a rejected word is refused. -/
theorem busRefusesOtherWords : Obligations.BusRefusesOtherWords := by
  intro s w rest hin hidle hw
  obtain ⟨r, hr⟩ := busDecode_reject_of_op hw
  simp [step, State.accept_bus hin (State.abandoned_of_idle hidle rest), acceptBus, hr]

/-- Settles O5: each word evaluates to its operation. -/
theorem sampleWordsDecode : Obligations.SampleWordsDecode := by
  unfold Obligations.SampleWordsDecode
  decide

/-- Settles O15: page and offset are the quotient and the remainder by 256 of the low 16 bits. -/
theorem decodeIsInvertible : Obligations.DecodeIsInvertible := by
  refine ⟨fun p o addr h => ?_, fun addr => ?_⟩
  · have hp := p.isLt
    have ho := o.isLt
    exact ⟨BitVec.eq_of_toNat_eq (by rw [pageOf_toNat]; omega),
      BitVec.eq_of_toNat_eq (by rw [offsetOf_toNat]; omega)⟩
  · rw [pageOf_toNat, offsetOf_toNat]
    omega

end Sys2Proof.Machine
end

section
/-! PROOFS. Codes, and what the host does with trace values, bytes and lines (60_exceptions.md R201;
30_encoding.md R86, R100; 00_scope.md R14). -/

namespace Sys2Proof.Machine

/-- Settles O53: each status has the code of R201, and a cause is the code of its error. -/
theorem statusAndCauseCodes : Obligations.StatusAndCauseCodes := by
  refine ⟨rfl, rfl, rfl, rfl, rfl, rfl, fun e => ?_⟩
  cases e <;> rfl

/-- Settles O54: the command decodes by the round trip (`decode_encode`), and reduction modulo `2^32` keeps the
low 16 bits. -/
theorem traceValuesBecomeTranslations : Obligations.TraceValuesBecomeTranslations := by
  refine ⟨fun n => ⟨hostDecode_of_decode (decode_encode rfl) rfl, fun hn => ?_, ?_, ?_⟩,
    fun n lines => ⟨rfl, rfl⟩⟩
  · rw [BitVec.toNat_ofNat, Nat.mod_eq_of_lt hn]
  · rw [pageOf_toNat, BitVec.toNat_ofNat]
    omega
  · rw [offsetOf_toNat, BitVec.toNat_ofNat]
    omega

theorem signedByte_eq_toInt (b : Byte) : signedByte b = b.toInt := by
  rw [signedByte, BitVec.toInt_eq_toNat_cond]
  split <;> split <;> omega

/-- Settles O55: both readings subtract 256 from 128 up, and widening keeps the value. -/
theorem signedReadingOfAByte : Obligations.SignedReadingOfAByte := by
  intro b
  have hlow := b.le_toInt
  have hhigh := b.toInt_lt
  rw [signedByte_eq_toInt]
  exact ⟨rfl, by simpa using hlow, by simp at hhigh; omega, BitVec.toInt_signExtend_of_le (by decide)⟩

end Sys2Proof.Machine
end

section
/-! PROOFS. The well-formedness predicate, part by part: what each part reads, that it holds after reset, and that
TLBINS and SWAPIN as XLATE uses them keep it (10_state.md R27, R29, R32, R34, R48). -/

namespace Sys2Proof.Machine

section
variable {s t : State}

/-! ### What each part of the predicate reads -/

theorem TlbInv.congr (h : TlbInv s) (htlb : t.tlb = s.tlb) (hpt : t.pt = s.pt) (hconf : t.config = s.config) :
    TlbInv t where
  length_le := by rw [htlb, hconf]; exact h.length_le
  pages_distinct := by rw [htlb]; exact h.pages_distinct
  agrees := by
    intro e he
    rw [htlb] at he
    rw [ptLookup_congr hpt]
    exact h.agrees e he

theorem PtInv.congr (h : PtInv s) (hpt : t.pt = s.pt) (hn : t.nextFrame = s.nextFrame) : PtInv t where
  frame_lt := by simpa only [ptLookup_congr hpt, hn] using h.frame_lt
  frame_inj := by simpa only [ptLookup_congr hpt] using h.frame_inj
  valid_count := by rw [hpt, hn]; exact h.valid_count

theorem PmInv.congr (h : PmInv s) (hpm : t.pm = s.pm) (hpt : t.pt = s.pt) (hn : t.nextFrame = s.nextFrame)
    (hconf : t.config = s.config) (hbs : t.bs = s.bs) : PmInv t where
  wf := by rw [hpm]; exact h.wf
  in_allocated := by rw [hpm, hn]; exact h.in_allocated
  next_le := by rw [hn, hconf]; exact h.next_le
  loaded := by simpa only [ptLookup_congr hpt, pmByte_congr hpm, storeByte_congr hbs] using h.loaded

theorem HaltInv.congr (h : HaltInv s) (hh : t.halted = s.halted) (hc : t.cause = s.cause) : HaltInv t where
  running := by rw [hh, hc]; exact h.running
  stopped := by rw [hh, hc]; exact h.stopped

/-- The ports and the answers are no part of the predicate, and of the inputs it asks who drives them. -/
theorem Inv.of_ports (h : Inv s) (hd : HostDriven t)
    (ht : t = { s with rsp := t.rsp, bus := t.bus, bsReq := t.bsReq, bsAnswers := t.bsAnswers,
                       inputs := t.inputs }) : Inv t := by
  rw [ht] at hd ⊢
  exact ⟨h.tlb.congr rfl rfl rfl, h.pt.congr rfl rfl, h.pm.congr rfl rfl rfl rfl rfl,
    ⟨h.counts.hit_le, h.counts.fault_le, h.counts.sum_le, h.counts.fault_eq, h.counts.occupancy⟩,
    h.halt.congr rfl rfl, hd⟩

/-! ### Reset -/

/-- After reset nothing is resident, loaded, written or counted. -/
theorem Inv.restart {rest : List Input} (hd : ∀ w, Input.bus w ∉ rest) : Inv (s.restart rest) := by
  have hnone (p : Page) : (s.restart rest).ptLookup p = none := State.ptLookup_reset p
  refine ⟨⟨Nat.zero_le _, List.nodup_nil, nofun⟩, ⟨?_, ?_, ?_⟩, ⟨memoryWf_reset, nofun, Nat.zero_le _, ?_⟩,
    ⟨BitVec.le_refl _, BitVec.le_refl _, fun _ => Nat.le_refl _, rfl, fun _ => (Nat.min_zero _).symm⟩,
    ⟨fun _ => rfl, nofun⟩, hd⟩
  · simp only [hnone]; nofun
  · simp only [hnone]; nofun
  · rw [State.restart_pt, Vector.toList_replicate, List.countP_replicate]
    rfl
  · simp only [hnone]; nofun

/-! ### The error entry -/

/-- The first error sets HALTED with its cause, and a later one changes neither. -/
theorem HaltInv.errorEntry (h : HaltInv s) (e : Error) : HaltInv (s.errorEntry e) where
  running := nofun
  stopped := fun _ => by
    rw [State.errorEntry_cause]
    split
    · next hh => exact h.stopped hh
    · exact ⟨e, rfl⟩

theorem Inv.failXlate (h : Inv s) (addr : Arg) (e : Error) (rest : List BsAnswer) :
    Inv ((s.takeAnswer rest).failXlate addr e) :=
  ⟨h.tlb.congr rfl rfl rfl, h.pt.congr rfl rfl, h.pm.congr rfl rfl rfl rfl rfl,
    ⟨h.counts.hit_le, h.counts.fault_le, h.counts.sum_le, h.counts.fault_eq, h.counts.occupancy⟩,
    (h.halt.errorEntry e).congr rfl rfl, h.host⟩

/-! ### TLBINS of a page that is loaded and not resident -/

theorem nodup_pages_tlbAppend {cap : Nat} {tlb : List TlbEntry} {e : TlbEntry}
    (hd : (tlb.map (fun d => d.page)).Nodup) (hm : tlbFind tlb e.page = none) :
    ((tlbAppend cap tlb e).map (fun d => d.page)).Nodup := by
  have append {l : List TlbEntry} (hl : l.Sublist tlb) : ((l ++ [e]).map (fun d => d.page)).Nodup := by
    rw [List.map_append, List.nodup_append]
    refine ⟨hd.sublist (hl.map _), List.nodup_singleton _, fun p hp q hq => ?_⟩
    obtain ⟨d, hdl, rfl⟩ := List.mem_map.1 hp
    rw [List.mem_singleton.1 hq]
    exact tlbFind_eq_none_iff.1 hm d (hl.subset hdl)
  unfold tlbAppend
  split
  · exact append (List.tail_sublist tlb)
  · exact append (List.Sublist.refl tlb)

theorem TlbInv.tlbInsert (h : TlbInv s) {p : Page} {f : Frame} (ht : s.tlbLookup p = none)
    (hp : s.ptLookup p = some f) : TlbInv (s.tlbInsert p f) where
  length_le := by
    rw [State.tlbInsert_tlb, length_tlbAppend s.config.tlbCap_pos h.length_le]
    exact Nat.min_le_left _ _
  pages_distinct := nodup_pages_tlbAppend h.pages_distinct ht
  agrees := by
    intro e he
    rw [ptLookup_congr (State.tlbInsert_pt s p f)]
    rcases mem_tlbAppend he with he | rfl
    · exact h.agrees e he
    · exact hp

/-! ### The counters -/

/-- The counters advance with the events of an XLATE: a miss has inserted, a fault has allocated. -/
theorem CountInv.answered {u : State} (h : CountInv s) {hit fault : Bool} (hc : SameCounters s u)
    (hconf : u.config = s.config) (hev : hit.toNat + fault.toNat ≤ 1)
    (hn : u.nextFrame.toNat = s.nextFrame.toNat + fault.toNat)
    (hlen : u.tlb.length = min s.config.tlbCap (s.tlb.length + 1 - hit.toNat))
    (addr : Arg) (f : Frame) (b : Byte) : CountInv (u.answered addr hit fault f b) := by
  obtain ⟨htotal, hfault, hhit⟩ := hc
  obtain ⟨hitle, faultle, hsum, heq, hocc⟩ := h
  have hmax : 512 < countMax := by decide
  have htop : s.totalCount.toNat ≤ countMax := Nat.le_of_lt_succ s.totalCount.isLt
  have hnext := u.nextFrame.isLt
  rw [BitVec.le_def] at hitle faultle
  constructor <;> simp only [State.answered_totalCount, State.answered_hitCount, State.answered_faultCount,
      State.answered_nextFrame, State.answered_tlb, State.answered_config, BitVec.le_def, satAdd_toNat,
      htotal, hfault, hhit, hconf, hn, hlen, Bool.toNat_true]
  all_goals
    generalize countMax = max at *
    omega

/-! ### SWAPIN of a page that is not loaded -/

/-- No resident entry is of the page, so none disagrees with its new frame. -/
theorem TlbInv.swapped (h : TlbInv s) {p : Page} (hp : s.ptLookup p = none) (rest : List BsAnswer) :
    TlbInv (s.swapped p rest) where
  length_le := h.length_le
  pages_distinct := h.pages_distinct
  agrees := by
    intro e he
    have hentry := h.agrees e he
    have hne : e.page ≠ p := by
      intro heq
      rw [heq, hp] at hentry
      cases hentry
    rw [ptLookup_swapped, if_neg hne, hentry]

/-- One more entry is valid. -/
theorem countP_valid_set {p : Page} (hp : s.ptLookup p = none) (f : Frame) :
    (s.pt.set p.toNat (some f) p.isLt).toList.countP (fun entry => entry.isSome) =
      s.pt.toList.countP (fun entry => entry.isSome) + 1 := by
  have hentry : s.pt[p.toNat]'p.isLt = none := hp
  simp [Vector.countP_toList, Vector.countP_set, hentry]

/-- The new frame is above all frames in use. -/
theorem PtInv.swapped (h : PtInv s) {p : Page} (hp : s.ptLookup p = none)
    (hn : s.nextFrame.toNat < s.config.numFrames) (rest : List BsAnswer) : PtInv (s.swapped p rest) where
  frame_lt := by
    intro q f hq
    rw [State.swapped_nextFrame, nextFrame_succ_toNat hn]
    rw [ptLookup_swapped] at hq
    split at hq
    · cases hq
      rw [nextFrame_setWidth_toNat hn]
      omega
    · exact Nat.lt_succ_of_lt (h.frame_lt q f hq)
  frame_inj := by
    have fresh {q : Page} (hq : s.ptLookup q = some (s.nextFrame.setWidth 8)) : False := by
      have hlt := h.frame_lt q _ hq
      rw [nextFrame_setWidth_toNat hn] at hlt
      exact Nat.lt_irrefl _ hlt
    intro q r f hq hr
    rw [ptLookup_swapped] at hq hr
    split at hq <;> split at hr
    · next hqp hrp => rw [hqp, hrp]
    · cases hq
      exact (fresh hr).elim
    · cases hr
      exact (fresh hq).elim
    · exact h.frame_inj q r f hq hr
  valid_count := by
    rw [State.swapped_nextFrame, nextFrame_succ_toNat hn, ← h.valid_count]
    exact countP_valid_set hp _

/-- The page fills the frame above those in use, and every loaded page stays. -/
theorem PmInv.swapped (h : PmInv s) {p : Page} (hn : s.nextFrame.toNat < s.config.numFrames)
    (rest : List BsAnswer) (hpt : PtInv s) : PmInv (s.swapped p rest) where
  wf := memoryWf_writeBlock _ _ h.wf
  in_allocated := by
    intro c hc
    rw [State.swapped_pm, nextFrame_setWidth_toNat hn] at hc
    rw [State.swapped_nextFrame, nextFrame_succ_toNat hn]
    rcases mem_writeBlock hc with hc | hc
    · exact Nat.lt_of_lt_of_le (h.in_allocated c hc) (Nat.mul_le_mul_right _ (Nat.le_succ _))
    · rw [length_storePage] at hc
      rw [Config.frameSize, Nat.succ_mul]
      exact hc.2
  next_le := by
    rw [State.swapped_nextFrame, nextFrame_succ_toNat hn]
    exact hn
  loaded := by
    intro q f hq k
    rw [ptLookup_swapped] at hq
    rw [pmByte_swapped, storeByte_congr (State.swapped_bs s p rest)]
    split at hq
    · next hqp =>
      cases hq
      rw [if_pos rfl, hqp]
    · have hne : f ≠ s.nextFrame.setWidth 8 := by
        intro hf
        have hlt := hpt.frame_lt q f hq
        rw [hf, nextFrame_setWidth_toNat hn] at hlt
        exact Nat.lt_irrefl _ hlt
      rw [if_neg hne, h.loaded q f hq k]

end

/-- Settles O38: reset is a restart of the block with no inputs (`Inv.restart`). -/
theorem resetStateIsWellFormed : Obligations.ResetStateIsWellFormed :=
  Inv.restart (s := State.reset) (rest := []) nofun

end Sys2Proof.Machine
end

section
/-! PROOFS. XLATE from a well-formed state: every leaf ends with the byte of the store, and the next state is well
formed again (43_physical_memory.md R158; 44_translator.md R172; 10_state.md R48). -/

namespace Sys2Proof.Machine

/-! ### The leaves -/

namespace XlateLeaf

variable {s u : State} {page : Page} {hit fault : Bool} {f : Frame}

/-- A leaf writes the tables, the memory and the free-frame counter, and takes at most an answer. -/
theorem frame (leaf : XlateLeaf s page hit fault f u) :
    u = { s with tlb := u.tlb, pt := u.pt, pm := u.pm, nextFrame := u.nextFrame, bsAnswers := u.bsAnswers } := by
  cases leaf with
  | tlbHit ht => rfl
  | ptHit ht hp => rfl
  | pageFault ht hp ha hn => rfl

theorem config_eq (leaf : XlateLeaf s page hit fault f u) : u.config = s.config := by
  rw [leaf.frame]

theorem bs_eq (leaf : XlateLeaf s page hit fault f u) : u.bs = s.bs := by
  rw [leaf.frame]

theorem halted_eq (leaf : XlateLeaf s page hit fault f u) : u.halted = s.halted := by
  rw [leaf.frame]

theorem cause_eq (leaf : XlateLeaf s page hit fault f u) : u.cause = s.cause := by
  rw [leaf.frame]

theorem inputs_eq (leaf : XlateLeaf s page hit fault f u) : u.inputs = s.inputs := by
  rw [leaf.frame]

theorem tlbInv (leaf : XlateLeaf s page hit fault f u) (h : Inv s) : TlbInv u := by
  cases leaf with
  | tlbHit ht => exact h.tlb
  | ptHit ht hp => exact h.tlb.tlbInsert ht hp
  | pageFault ht hp ha hn =>
    exact (h.tlb.swapped hp _).tlbInsert ht (by rw [ptLookup_swapped, if_pos rfl])

theorem ptInv (leaf : XlateLeaf s page hit fault f u) (h : Inv s) : PtInv u := by
  cases leaf with
  | tlbHit ht => exact h.pt
  | ptHit ht hp => exact h.pt.congr rfl rfl
  | @pageFault rest ht hp ha hn => exact (h.pt.swapped hp hn rest).congr rfl rfl

theorem pmInv (leaf : XlateLeaf s page hit fault f u) (h : Inv s) : PmInv u := by
  cases leaf with
  | tlbHit ht => exact h.pm
  | ptHit ht hp => exact h.pm.congr rfl rfl rfl rfl rfl
  | @pageFault rest ht hp ha hn => exact (h.pm.swapped hn rest h.pt).congr rfl rfl rfl rfl rfl

/-- A page fault takes one frame. -/
theorem nextFrame_toNat (leaf : XlateLeaf s page hit fault f u) :
    u.nextFrame.toNat = s.nextFrame.toNat + fault.toNat := by
  cases leaf with
  | tlbHit ht => rfl
  | ptHit ht hp => rfl
  | pageFault ht hp ha hn => exact nextFrame_succ_toNat hn

/-- A miss has inserted and a fault has allocated, as the counters will say. -/
theorem countInv (leaf : XlateLeaf s page hit fault f u) (h : Inv s) (addr : Arg) (b : Byte) :
    CountInv (u.answered addr hit fault f b) := by
  have hlen := h.tlb.length_le
  have hinsert (e : TlbEntry) := length_tlbAppend s.config.tlbCap_pos hlen e
  refine h.counts.answered leaf.sameCounters leaf.config_eq ?_ leaf.nextFrame_toNat ?_ addr f b
  · cases leaf <;> decide
  · cases leaf with
    | tlbHit ht => exact (Nat.min_eq_right hlen).symm
    | ptHit ht hp => exact hinsert _
    | pageFault ht hp ha hn => exact hinsert _

/-- After a leaf the page table holds the frame, also where the TLB answered. -/
theorem ptLookup_eq (leaf : XlateLeaf s page hit fault f u) (h : TlbInv s) : u.ptLookup page = some f := by
  cases leaf with
  | tlbHit ht => exact h.agrees _ (mem_of_tlbFind ht)
  | ptHit ht hp => exact (XlateLeaf.ptHit ht hp).ptLookup_of_miss rfl
  | pageFault ht hp ha hn => exact (XlateLeaf.pageFault ht hp ha hn).ptLookup_of_miss rfl

theorem frame_lt (leaf : XlateLeaf s page hit fault f u) (h : Inv s) : f.toNat < u.config.numFrames :=
  Nat.lt_of_lt_of_le ((leaf.ptInv h).frame_lt page f (leaf.ptLookup_eq h.tlb)) (leaf.pmInv h).next_le

/-- After a leaf the frame holds the bytes of the page. -/
theorem pmByte_eq (leaf : XlateLeaf s page hit fault f u) (h : Inv s) (o : Offset) :
    u.pmByte f o = some (s.storeByte (storeAddr page o)) := by
  rw [(leaf.pmInv h).loaded page f (leaf.ptLookup_eq h.tlb) o, storeByte_congr leaf.bs_eq]

end XlateLeaf

/-! ### The next state -/

/-- Whatever an XLATE ends in, the state is well formed again; InvalidAddress it cannot end in. -/
theorem XlateNext.inv {addr : Arg} {s t : State} (hx : XlateNext addr s t) (h : Inv s) : Inv t := by
  cases hx with
  | refused => exact h.of_ports h.host rfl
  | waiting => exact h.of_ports h.host rfl
  | ioError => exact h.failXlate addr _ _
  | capacityExhausted => exact h.failXlate addr _ _
  | invalidAddress hh leaf hf => exact absurd (leaf.frame_lt h) (Nat.not_lt.2 hf)
  | ok hh leaf hf hb =>
    refine ⟨(leaf.tlbInv h).congr rfl rfl rfl, (leaf.ptInv h).congr rfl rfl,
      (leaf.pmInv h).congr rfl rfl rfl rfl rfl, leaf.countInv h addr _,
      h.halt.congr leaf.halted_eq leaf.cause_eq, fun w hw => h.host w ?_⟩
    rwa [State.answered_inputs, leaf.inputs_eq] at hw

end Sys2Proof.Machine
end

section
/-! PROOFS. A step of a block that only the host drives, and the predicate over it (30_encoding.md R87;
10_state.md R48). -/

namespace Sys2Proof.Machine

/-- A reset leaves inputs that were presented before. -/
theorem mem_inputs_of_restart {s : State} {rest : List Input} (h : s.accept = .restart rest) {c : Input}
    (hc : c ∈ rest) : c ∈ s.inputs := by
  rcases s.accept_cases with ⟨-, ha⟩ | ⟨rest', ha, hin⟩ | ⟨w, rest', -, -, ha⟩ | ⟨w, rest', -, -, ha⟩
  · cases ha.symm.trans h
  · cases ha.symm.trans h
    rcases hin with hin | ⟨d, hin, -⟩
    · rw [hin]; exact List.mem_cons_of_mem _ hc
    · rw [hin]; exact List.mem_cons_of_mem _ (List.mem_cons_of_mem _ hc)
  · rw [h, acceptHost] at ha
    split at ha <;> cases ha
  · rw [h, acceptBus] at ha
    split at ha <;> cases ha

/-- Driven by the host, a step is a reset, an idle step, an answer on the response port alone, or an XLATE. -/
theorem step_of_hostDriven {s t : State} (hd : HostDriven s) (h : step s = .next t) :
    (∃ rest, s.accept = .restart rest ∧ t = s.restart rest) ∨ t = s ∨
    (∃ c rest r, s.inputs = c :: rest ∧ t = (s.respond r).retire rest) ∨
    (∃ c rest addr u, s.inputs = c :: rest ∧ XlateNext addr s u ∧ t = u.retire rest) := by
  rcases step_cases s with ⟨-, hs⟩ | ⟨rest, ha, hs⟩ | ⟨w, rest, -, hin, -, hs⟩ | ⟨w, rest, addr, hin, -, hs⟩ |
    ⟨w, rest, arg, hin, -, hs⟩ | ⟨w, rest, i, hin, -, -⟩ | ⟨w, rest, -, -, -, hs⟩
  · cases hs.symm.trans h
    exact .inr (.inl rfl)
  · cases hs.symm.trans h
    exact .inl ⟨rest, ha, rfl⟩
  · cases hs.symm.trans h
    exact .inr (.inr (.inl ⟨_, rest, _, hin, rfl⟩))
  · obtain ⟨u, hu, rfl⟩ := retireOutcome_eq_next (hs.symm.trans h)
    exact .inr (.inr (.inr ⟨_, rest, addr, u, hin, xlateNext_of_execXlate hu, rfl⟩))
  · rcases execRdcsr_cases arg s with ⟨v, -, hr⟩ | ⟨-, hr⟩
    all_goals
      rw [hr] at hs
      cases hs.symm.trans h
      exact .inr (.inr (.inl ⟨_, rest, _, hin, rfl⟩))
  · exact absurd (hin ▸ List.mem_cons_self) (hd w)
  · cases hs.symm.trans h

/-- Taking the command from the inputs keeps the predicate. -/
theorem Inv.retire {s : State} (h : Inv s) {rest : List Input} (hd : ∀ w, Input.bus w ∉ rest) :
    Inv (s.retire rest) := by
  rcases s.retire_cases rest with hr | hr
  · rw [hr]; exact h
  · rw [hr]; exact h.of_ports hd rfl

/-- Settles O39: of the steps of `step_of_hostDriven`, only a reset (`Inv.restart`) and an XLATE
(`XlateNext.inv`) write what the predicate reads. -/
theorem everyStepKeepsWellFormedness : Obligations.EveryStepKeepsWellFormedness := by
  intro s t h hstep
  have later {c : Input} {rest : List Input} (hin : s.inputs = c :: rest) (w : Word) : Input.bus w ∉ rest :=
    fun hw => h.host w (hin ▸ List.mem_cons_of_mem c hw)
  rcases step_of_hostDriven h.host hstep with ⟨rest, ha, rfl⟩ | rfl | ⟨c, rest, r, hin, rfl⟩ |
    ⟨c, rest, addr, u, hin, hx, rfl⟩
  · exact Inv.restart (fun w hw => h.host w (mem_inputs_of_restart ha hw))
  · exact h
  · exact (h.of_ports h.host rfl : Inv (s.respond r)).retire (later hin)
  · exact (hx.inv h).retire (later hin)

end Sys2Proof.Machine
end

section
/-! PROOFS. The fault service and the byte read, run on their own (43_physical_memory.md R151, R152, R154 to R157;
93_implementation_defined.md U1). -/

namespace Sys2Proof.Machine

/-! ### SWAPIN by the store's answer and the free frames -/

section
variable {s : State} {rest : List BsAnswer} (page : Page)

theorem swapIn_of_noAnswer (ha : s.bsAnswers = []) : s.swapIn page = .waiting := by
  rw [State.swapIn, ha]

theorem swapIn_of_err (ha : s.bsAnswers = .err :: rest) :
    s.swapIn page = .failed .ioError (s.takeAnswer rest) := by
  rw [State.swapIn, ha]

theorem swapIn_of_full (ha : s.bsAnswers = .ok :: rest) (hn : s.config.numFrames ≤ s.nextFrame.toNat) :
    s.swapIn page = .failed .capacityExhausted (s.takeAnswer rest) := by
  simp [State.swapIn, ha, hn]

theorem swapIn_of_free (ha : s.bsAnswers = .ok :: rest) (hn : s.nextFrame.toNat < s.config.numFrames) :
    s.swapIn page = .loaded (s.nextFrame.setWidth 8) (s.swapped page rest) := by
  simp only [State.swapIn, ha, if_neg (Nat.not_le.2 hn)]
  rfl

end

/-! ### Memory after SWAPIN -/

/-- The filled frame holds the 256 bytes of the page. -/
theorem readCell_swapped_inside {s : State} (hn : s.nextFrame.toNat < s.config.numFrames) (page : Page)
    (rest : List BsAnswer) (k : Offset) :
    readCell (s.swapped page rest).pm (s.nextFrame.toNat * 256 + k.toNat) =
      some (s.storeByte (BitVec.ofNat 16 (page.toNat * 256 + k.toNat))) := by
  have hk : k.toNat < (s.storePage page).length := by simpa using k.isLt
  rw [State.swapped_pm, nextFrame_setWidth_toNat hn, readCell_writeBlock_inside _ hk, getElem_storePage,
    ← storeAddr_toNat, BitVec.ofNat_toNat, BitVec.setWidth_eq]

/-- Outside that frame no byte changes. -/
theorem readCell_swapped_outside {s : State} (hn : s.nextFrame.toNat < s.config.numFrames) (page : Page)
    (rest : List BsAnswer) {a : Nat} (ha : a < s.nextFrame.toNat * 256 ∨ s.nextFrame.toNat * 256 + 256 ≤ a) :
    readCell (s.swapped page rest).pm a = readCell s.pm a := by
  rw [State.swapped_pm, nextFrame_setWidth_toNat hn, readCell_writeBlock_outside]
  rwa [length_storePage]

/-! ### The two operations -/

/-- Settles O23: SWAPIN by its four ends (`swapIn_of_err`, `swapIn_of_full`, `swapIn_of_free`), and the frame it
fills (`readCell_swapped_inside`, `readCell_swapped_outside`). -/
theorem swapInServicesThePageFault : Obligations.SwapInServicesThePageFault := by
  intro s page rest
  obtain ⟨hop, harg⟩ := Laws.EncodesOpcode.swapin page
  refine ⟨fun ha => ?_, fun ha hn => ?_, fun ha hn => ?_, hop, harg.trans (zero_append_eq_setWidth page)⟩
  · rw [exec, execSwapin, swapIn_of_err page ha]
    rfl
  · rw [exec, execSwapin, swapIn_of_full page ha hn]
    rfl
  · have hexec : exec (.swapin page) s =
        .next ((s.swapped page rest).busAnswer (.loaded (s.nextFrame.setWidth 8))) := by
      rw [exec, execSwapin, swapIn_of_free page ha hn]
    exact ⟨_, hexec, rfl, nextFrame_succ_toNat hn, ptLookup_swapped s page rest,
      readCell_swapped_inside hn page rest, fun a => readCell_swapped_outside hn page rest⟩

/-- Settles O24: with no answer SWAPIN waits (`swapIn_of_noAnswer`). -/
theorem swapInWaitsForTheStore : Obligations.SwapInWaitsForTheStore := by
  intro s page ha
  rw [exec, execSwapin, swapIn_of_noAnswer page ha]
  rfl

/-- The byte RDBYTE reads stands at `frame * 256 + offset`. -/
theorem pmByte_eq_readCell (s : State) (frame : Frame) (offset : Offset) :
    s.pmByte frame offset = readCell s.pm (frame.toNat * 256 + offset.toNat) := by
  rw [State.pmByte, physAddr_toNat]

/-- Settles O25: a byte in range is answered (`readByte_value`), a frame out of range raises the error
(`readByte_outOfRange`). -/
theorem readByteReadsOrRaises : Obligations.ReadByteReadsOrRaises := by
  intro s frame offset
  obtain ⟨hop, harg⟩ := Laws.EncodesOpcode.rdbyte frame offset
  refine ⟨fun b hf hb => ?_, fun hf => ?_, hop, by rw [harg]; exact zero_append_append_toNat frame offset⟩
  · rw [exec, execRdbyte, readByte_value hf ((pmByte_eq_readCell s frame offset).trans hb)]
    rfl
  · rw [exec, execRdbyte, readByte_outOfRange hf]
    rfl

/-- Settles O26: of the three ends of RDBYTE (`readByte_cases`), a frame in range with no byte leaves the fault. -/
theorem readOfUnwrittenByteFaults : Obligations.ReadOfUnwrittenByteFaults := by
  intro s frame offset hf hb
  rw [← pmByte_eq_readCell] at hb
  have haddr : physAddr frame offset = BitVec.ofNat 16 (frame.toNat * 256 + offset.toNat) := by
    rw [← physAddr_toNat, BitVec.ofNat_toNat, BitVec.setWidth_eq]
  rcases readByte_cases s frame offset with ⟨hf', -⟩ | ⟨-, b, hb', -⟩ | ⟨-, -, hr⟩
  · omega
  · rw [hb] at hb'
    cases hb'
  · rw [exec, execRdbyte, hr, haddr]

end Sys2Proof.Machine
end

section
/-! PROOFS. XLATE branch by branch, from the state alone: the three leaves that succeed and the four error exits
(44_translator.md R171, R172, R176, R177). -/

namespace Sys2Proof.Machine

/-! ### The branches -/

section
variable {addr : Arg} {s : State}

/-- Each leaf is a branch that goes on to step 5. -/
theorem XlateLeaf.execXlate_eq {u : State} {hit fault : Bool} {f : Frame} (hh : s.halted = false)
    (leaf : XlateLeaf s (pageOf addr) hit fault f u) : execXlate addr s = finishXlate addr hit fault f u := by
  cases leaf with
  | tlbHit ht => simp [execXlate, hh, ht]
  | ptHit ht hp => simp [execXlate, hh, ht, hp]
  | pageFault ht hp ha hn => rw [execXlate_of_pageFault hh ht hp, swapIn_of_free _ ha hn]

/-- A leaf whose byte has a value is answered OK. -/
theorem XlateLeaf.execXlate_ok {u : State} {hit fault : Bool} {f : Frame} {b : Byte} (hh : s.halted = false)
    (leaf : XlateLeaf s (pageOf addr) hit fault f u) (hf : f.toNat < s.config.numFrames)
    (hb : u.pmByte f (offsetOf addr) = some b) : execXlate addr s = .next (u.answered addr hit fault f b) := by
  rw [leaf.execXlate_eq hh, finishXlate_value (by rwa [leaf.config_eq]) hb]

/-- A leaf whose frame is out of range ends in InvalidAddress. -/
theorem XlateLeaf.execXlate_invalidAddress {u : State} {hit fault : Bool} {f : Frame} (hh : s.halted = false)
    (leaf : XlateLeaf s (pageOf addr) hit fault f u) (hf : s.config.numFrames ≤ f.toNat) :
    execXlate addr s = .next (u.failXlate addr .invalidAddress) := by
  rw [leaf.execXlate_eq hh, finishXlate, readByte_outOfRange (by rwa [leaf.config_eq])]

/-- The error exit of a running block enters the error with its cause. -/
theorem State.failXlate_of_running (hh : s.halted = false) (e : Error) :
    s.failXlate addr e = { s with
      halted := true, cause := causeCode e, rsp := some (errorResponse addr e), bsReq := none } := by
  rw [State.failXlate, State.errorEntry_of_running hh]
  rfl

theorem execXlate_waiting (hh : s.halted = false) (ht : s.tlbLookup (pageOf addr) = none)
    (hp : s.ptLookup (pageOf addr) = none) (ha : s.bsAnswers = []) :
    execXlate addr s = .next (s.awaitStore (pageOf addr)) := by
  rw [execXlate_of_pageFault hh ht hp, swapIn_of_noAnswer _ ha]

theorem execXlate_ioError {rest : List BsAnswer} (hh : s.halted = false)
    (ht : s.tlbLookup (pageOf addr) = none) (hp : s.ptLookup (pageOf addr) = none)
    (ha : s.bsAnswers = .err :: rest) :
    execXlate addr s = .next ((s.takeAnswer rest).failXlate addr .ioError) := by
  rw [execXlate_of_pageFault hh ht hp, swapIn_of_err _ ha]

theorem execXlate_capacityExhausted {rest : List BsAnswer} (hh : s.halted = false)
    (ht : s.tlbLookup (pageOf addr) = none) (hp : s.ptLookup (pageOf addr) = none)
    (ha : s.bsAnswers = .ok :: rest) (hn : s.config.numFrames ≤ s.nextFrame.toNat) :
    execXlate addr s = .next ((s.takeAnswer rest).failXlate addr .capacityExhausted) := by
  rw [execXlate_of_pageFault hh ht hp, swapIn_of_full _ ha hn]

end

/-! ### The statements -/

/-- Settles O27: the leaf `tlbHit` with its byte. -/
theorem xlateOnTlbHit : Obligations.XlateOnTlbHit := by
  intro s addr f b hh ht hf hb
  exact (XlateLeaf.tlbHit ht).execXlate_ok hh hf ((pmByte_eq_readCell s f _).trans hb)

/-- Settles O28: the leaf `ptHit` with its byte. -/
theorem xlateOnPageTableHit : Obligations.XlateOnPageTableHit := by
  intro s addr f b hh ht hp hf hb
  exact (XlateLeaf.ptHit ht hp).execXlate_ok hh hf ((pmByte_eq_readCell s f _).trans hb)

/-- Settles O29: the leaf `pageFault`, whose byte SWAPIN has just filled (`pmByte_swapped`). -/
theorem xlateOnPageFault : Obligations.XlateOnPageFault := by
  intro s addr rest hh ht hp ha hn
  have hf : (s.nextFrame.setWidth 8 : Frame).toNat < s.config.numFrames :=
    (nextFrame_setWidth_toNat hn).trans_lt hn
  have hb : (s.swapped (pageOf addr) rest).pmByte (s.nextFrame.setWidth 8) (offsetOf addr) =
      some (s.storeByte (storeAddr (pageOf addr) (offsetOf addr))) := by
    rw [pmByte_swapped, if_pos rfl]
  exact ⟨_, (XlateLeaf.pageFault ht hp ha hn).execXlate_ok hh hf hb, rfl, nextFrame_succ_toNat hn,
    ptLookup_swapped s (pageOf addr) rest, readCell_swapped_inside hn (pageOf addr) rest,
    fun a => readCell_swapped_outside hn (pageOf addr) rest⟩

/-- Settles O31: each exit is one branch of XLATE, and the error entry of a running block writes HALTED and CAUSE
(`State.failXlate_of_running`). -/
theorem xlateErrorExits : Obligations.XlateErrorExits := by
  intro s addr hh failed
  refine ⟨fun rest ht hp ha => ?_, fun rest ht hp ha hn => ?_, fun f ht hf => ?_, fun f ht hp hf => ?_⟩
  · rw [exec, execXlate_ioError hh ht hp ha, State.failXlate_of_running (by exact hh)]
    rfl
  · rw [exec, execXlate_capacityExhausted hh ht hp ha hn, State.failXlate_of_running (by exact hh)]
    rfl
  · rw [exec, (XlateLeaf.tlbHit ht).execXlate_invalidAddress hh hf, State.failXlate_of_running hh]
    rfl
  · rw [exec, (XlateLeaf.ptHit ht hp).execXlate_invalidAddress hh hf, State.failXlate_of_running (by exact hh)]
    rfl

/-- Settles O33: an XLATE answered OK went through one of the three leaves (`xlate_ok_cases`). -/
theorem xlateHasThreeSuccessfulLeaves : Obligations.XlateHasThreeSuccessfulLeaves := by
  intro s t addr r h hreq hrsp hst
  obtain ⟨hit, fault, f, u, leaf, -, rfl, hr⟩ := xlate_ok_cases h hreq hrsp hst
  rw [hr]
  cases leaf with
  | tlbHit ht => exact .inl ⟨rfl, rfl, by simp [ht], rfl, rfl, rfl, rfl, rfl⟩
  | ptHit ht hp => exact .inr (.inl ⟨rfl, rfl, ht, rfl, rfl, rfl, rfl, f, hp, rfl⟩)
  | pageFault ht hp ha hn =>
    exact .inr (.inr ⟨rfl, rfl, ht, hp, ha, _, (XlateLeaf.pageFault ht hp ha hn).ptLookup_of_miss rfl, rfl⟩)

end Sys2Proof.Machine
end

section
/-! PROOFS. What an XLATE from a well-formed state answers: neither a fault nor InvalidAddress, and the byte of the
store, whatever the TLB holds (43_physical_memory.md R153, R158, R159; 20_memory.md R62; 10_state.md R41). -/

namespace Sys2Proof.Machine

section
variable {s t : State} {addr : Arg}

/-! ### The two tables -/

/-- What the TLB finds, the page table has. -/
theorem TlbInv.ptLookup_of_tlbLookup (h : TlbInv s) {p : Page} {f : Frame} (ht : s.tlbLookup p = some f) :
    s.ptLookup p = some f := h.agrees _ (mem_of_tlbFind ht)

/-- A page that is not loaded is not resident. -/
theorem TlbInv.tlbLookup_eq_none (h : TlbInv s) {p : Page} (hp : s.ptLookup p = none) : s.tlbLookup p = none := by
  cases ht : s.tlbLookup p with
  | none => rfl
  | some f => rw [h.ptLookup_of_tlbLookup ht] at hp; cases hp

/-- While a page is not loaded, fewer than 256 frames are in use: frames in use are counted by valid entries. -/
theorem PtInv.nextFrame_lt (h : PtInv s) {p : Page} (hp : s.ptLookup p = none) : s.nextFrame.toNat < 256 := by
  have hlt : s.pt.toList.countP (fun entry => entry.isSome) < s.pt.toList.length :=
    List.countP_lt_length_iff.2 ⟨none, hp ▸ Vector.mem_toList_iff.2 (Vector.getElem_mem p.isLt), rfl⟩
  rwa [h.valid_count, Vector.length_toList] at hlt

/-! ### The next state -/

/-- From a well-formed state a leaf ends in success, with the byte of the store. -/
theorem XlateLeaf.execXlate_of_inv {u : State} {hit fault : Bool} {f : Frame} (h : Inv s) (hh : s.halted = false)
    (leaf : XlateLeaf s (pageOf addr) hit fault f u) :
    execXlate addr s =
      .next (u.answered addr hit fault f (s.storeByte (storeAddr (pageOf addr) (offsetOf addr)))) := by
  have hf := leaf.frame_lt h
  rw [leaf.config_eq] at hf
  exact leaf.execXlate_ok hh hf (leaf.pmByte_eq h _)

/-- From a well-formed state an XLATE always ends in a next state. -/
theorem Inv.execXlate_next (h : Inv s) (addr : Arg) : ∃ t, execXlate addr s = .next t := by
  rcases execXlate_cases addr s with ⟨-, hr⟩ | ⟨hh, f, ht, -⟩ | ⟨hh, ht, f, hp, -⟩ | ⟨-, -, -, -, hr⟩ |
    ⟨-, -, -, rest, -, hr⟩ | ⟨-, -, -, rest, -, -, hr⟩ | ⟨hh, ht, hp, rest, ha, hn, -⟩
  · exact ⟨_, hr⟩
  · exact ⟨_, (XlateLeaf.tlbHit ht).execXlate_of_inv h hh⟩
  · exact ⟨_, (XlateLeaf.ptHit ht hp).execXlate_of_inv h hh⟩
  · exact ⟨_, hr⟩
  · exact ⟨_, hr⟩
  · exact ⟨_, hr⟩
  · exact ⟨_, (XlateLeaf.pageFault ht hp ha hn).execXlate_of_inv h hh⟩

/-- RDCSR always ends in a next state. -/
theorem execRdcsr_next (arg : Arg) (s : State) : ∃ t, execRdcsr arg s = .next t := by
  rcases execRdcsr_cases arg s with ⟨v, -, hr⟩ | ⟨-, hr⟩
  · exact ⟨_, hr⟩
  · exact ⟨_, hr⟩

/-- Of the inputs of a step, only a micro-operation on the bus could stop it, and the host issues none. -/
theorem Inv.stepSafe (h : Inv s) : StepSafe s := by
  rcases step_cases s with ⟨-, hs⟩ | ⟨rest, -, hs⟩ | ⟨w, rest, -, -, -, hs⟩ | ⟨w, rest, addr, -, -, hs⟩ |
    ⟨w, rest, arg, -, -, hs⟩ | ⟨w, rest, i, hin, -, -⟩ | ⟨w, rest, -, hin, -, -⟩
  · exact ⟨_, hs⟩
  · exact ⟨_, hs⟩
  · exact ⟨_, hs⟩
  · obtain ⟨t, ht⟩ := h.execXlate_next addr
    exact ⟨t.retire rest, by rw [hs, ht]; rfl⟩
  · obtain ⟨t, ht⟩ := execRdcsr_next arg s
    exact ⟨t.retire rest, by rw [hs, ht]; rfl⟩
  · exact absurd (hin ▸ List.mem_cons_self) (h.host w)
  · exact absurd (hin ▸ List.mem_cons_self) (h.host w)

/-! ### The response without the TLB -/

/-- The response of an XLATE as page table, free frames and store decide it, with `hit` left at 0; what it is while
the block waits has no meaning. -/
def tableResponse (addr : Arg) (s : State) : Response :=
  if s.halted then Response.bare .halted addr
  else
    let value := s.storeByte (storeAddr (pageOf addr) (offsetOf addr))
    match s.ptLookup (pageOf addr), s.bsAnswers with
    | some f, _ => okResponse addr false false f value
    | none, [] => Response.bare .ok addr
    | none, .err :: _ => errorResponse addr .ioError
    | none, .ok :: _ =>
      if s.config.numFrames ≤ s.nextFrame.toNat then errorResponse addr .capacityExhausted
      else okResponse addr false true (s.nextFrame.setWidth 8) value

/-- A leaf answers what the tables decide, and reports its own event. -/
theorem XlateLeaf.okResponse_eq {u : State} {hit fault : Bool} {f : Frame} (h : Inv s) (hh : s.halted = false)
    (leaf : XlateLeaf s (pageOf addr) hit fault f u) :
    okResponse addr hit fault f (s.storeByte (storeAddr (pageOf addr) (offsetOf addr))) =
      { tableResponse addr s with hit := hit } := by
  cases leaf with
  | tlbHit ht => simp [tableResponse, hh, h.tlb.ptLookup_of_tlbLookup ht, okResponse]
  | ptHit ht hp => simp [tableResponse, hh, hp, okResponse]
  | pageFault ht hp ha hn => simp [tableResponse, hh, hp, ha, Nat.not_le.2 hn, okResponse]

/-- From a well-formed state an answered XLATE has the response the tables decide, but for `hit`. -/
theorem XlateNext.rsp_eq (hx : XlateNext addr s t) (h : Inv s) (hreq : t.bsReq = none) {r : Response}
    (hrsp : t.rsp = some r) : r = { tableResponse addr s with hit := r.hit } := by
  cases hx with
  | refused hh => cases hrsp; simp [tableResponse, hh, Response.bare]
  | waiting => cases hreq
  | ioError hh ht hp ha => cases hrsp; simp [tableResponse, hh, hp, ha, errorResponse, Response.bare]
  | capacityExhausted hh ht hp ha hn =>
    cases hrsp
    simp [tableResponse, hh, hp, ha, hn, errorResponse, Response.bare]
  | invalidAddress hh leaf hf => exact absurd (leaf.frame_lt h) (Nat.not_lt.2 hf)
  | ok hh leaf hf hb =>
    cases hrsp
    cases hb.symm.trans (leaf.pmByte_eq h _)
    exact leaf.okResponse_eq h hh

end

/-! ### The statements -/

/-- Settles O40: every step ends in a next state (`Inv.stepSafe`), and a leaf finds its frame in range
(`XlateLeaf.frame_lt`). -/
theorem wellFormedStatesNeverFault : Obligations.WellFormedStatesNeverFault := by
  intro s h
  refine ⟨h.stepSafe, fun addr t r hex hreq hrsp => ?_⟩
  cases xlateNext_of_execXlate hex with
  | refused => cases hrsp; nofun
  | waiting => cases hreq
  | ioError => cases hrsp; nofun
  | capacityExhausted => cases hrsp; nofun
  | invalidAddress hh leaf hf => exact absurd (leaf.frame_lt h) (Nat.not_lt.2 hf)
  | ok => cases hrsp; nofun

/-- Settles O41: a page that faults is not among those loaded, so a frame is free (`PtInv.nextFrame_lt`). -/
theorem capacityIsNeverExhaustedAt256Frames : Obligations.CapacityIsNeverExhaustedAt256Frames := by
  intro s t addr r h hframes hex hreq hrsp
  cases xlateNext_of_execXlate hex with
  | refused => cases hrsp; nofun
  | waiting => cases hreq
  | ioError => cases hrsp; nofun
  | capacityExhausted hh ht hp ha hn => exact absurd (h.pt.nextFrame_lt hp) (by omega)
  | invalidAddress => cases hrsp; nofun
  | ok => cases hrsp; nofun

/-- The store address of a logical address is its low 16 bits (20_memory.md R53). -/
theorem storeAddr_of_addr (addr : Arg) : storeAddr (pageOf addr) (offsetOf addr) = addr.setWidth 16 :=
  BitVec.eq_of_toNat_eq (by rw [storeAddr_toNat, decodeIsInvertible.2, BitVec.toNat_setWidth])

/-- Settles O42: a leaf reads the byte of the store (`XlateLeaf.pmByte_eq`) at the frame the page table holds after
it (`XlateLeaf.ptLookup_eq`), which on a fault is the next free one. -/
theorem translationReadsTheStore : Obligations.TranslationReadsTheStore := by
  intro s t addr r h hex hreq hrsp hst
  obtain ⟨hit, fault, f, u, leaf, hb, rfl, hr⟩ := xlate_ok_cases hex hreq hrsp hst
  refine ⟨?_, f, leaf.ptLookup_eq h.tlb, ?_, ?_⟩
  · rw [leaf.pmByte_eq h, storeAddr_of_addr] at hb
    exact (Option.some.inj hb).symm
  · rw [hr, ← offsetOf_toNat]
    exact physAddr_toNat f (offsetOf addr)
  · rw [hr]
    cases leaf with
    | tlbHit ht => exact ⟨nofun, fun _ => h.tlb.ptLookup_of_tlbLookup ht⟩
    | ptHit ht hp => exact ⟨nofun, fun _ => hp⟩
    | pageFault ht hp ha hn => exact ⟨fun _ => nextFrame_setWidth_toNat hn, nofun⟩

/-- Settles O50: the response but for `hit` is decided by the tables (`XlateNext.rsp_eq`), in which the two states
agree. -/
theorem tlbContentsDoNotChangeResults : Obligations.TlbContentsDoNotChangeResults := by
  intro s u t v addr r q hs hu hsame hext hexv hreqt hreqv hr hq
  have htable : tableResponse addr u = tableResponse addr s := by
    rw [hsame]
    rfl
  have hrs := (xlateNext_of_execXlate hext).rsp_eq hs hreqt hr
  have hqs := (xlateNext_of_execXlate hexv).rsp_eq hu hreqv hq
  rw [hqs, hrs, htable]

/-- A page just inserted is found, with the frame it was inserted with. -/
theorem tlbFind_tlbAppend {cap : Nat} {tlb : List TlbEntry} {e : TlbEntry}
    (hd : ((tlbAppend cap tlb e).map (fun d => d.page)).Nodup) :
    tlbFind (tlbAppend cap tlb e) e.page = some e.frame := by
  refine tlbFind_of_mem hd ?_
  unfold tlbAppend
  split
  · exact List.mem_concat_self
  · exact List.mem_concat_self

/-- After any leaf the page is resident. -/
theorem XlateLeaf.tlbLookup_eq {s u : State} {page : Page} {hit fault : Bool} {f : Frame}
    (leaf : XlateLeaf s page hit fault f u) (h : Inv s) : u.tlbLookup page = some f := by
  have hd := (leaf.tlbInv h).pages_distinct
  cases leaf with
  | tlbHit ht => exact ht
  | ptHit ht hp => exact tlbFind_tlbAppend hd
  | pageFault ht hp ha hn => exact tlbFind_tlbAppend hd

/-- A running block answers an XLATE of a resident page as a hit. -/
theorem execXlate_of_resident {s : State} {addr : Arg} {f : Frame} (h : Inv s) (hh : s.halted = false)
    (ht : s.tlbLookup (pageOf addr) = some f) :
    ∃ u q, execXlate addr s = .next u ∧ u.rsp = some q ∧ q.status = .ok ∧ q.hit = true ∧ q.fault = false :=
  ⟨_, _, (XlateLeaf.tlbHit ht).execXlate_of_inv h hh, rfl, rfl, rfl, rfl⟩

/-- Settles O51: the first access takes the leaf `pageFault`, after which the page is resident
(`XlateLeaf.tlbLookup_eq`), so that the second takes the leaf `tlbHit`. -/
theorem coldStartLaw : Obligations.ColdStartLaw := by
  intro s addr rest h hh hp ha hn
  have leaf := XlateLeaf.pageFault (h.tlb.tlbLookup_eq_none hp) hp ha hn
  have hex := leaf.execXlate_of_inv h hh
  refine ⟨_, _, hex, rfl, rfl, rfl, rfl, fun again hpage => ?_⟩
  have hinv := (xlateNext_of_execXlate hex).inv h
  exact execXlate_of_resident hinv hh (by rw [hpage]; exact leaf.tlbLookup_eq h)

end Sys2Proof.Machine
end

section
/-! PROOFS. What an operation can do, whichever it is, and what every operation leaves: the TLB but for one insertion,
the configuration, the store and the inputs (41_tlb.md R124; 20_memory.md R58; 41_tlb.md R128). -/

namespace Sys2Proof.Machine

/-- The next states of an operation. -/
inductive ExecNext (s : State) : Instr → State → Prop
  | xlate {addr : Arg} {t : State} (hx : XlateNext addr s t) : ExecNext s (.xlate addr) t
  | rdcsr (arg : Arg) (r : Response) : ExecNext s (.rdcsr arg) (s.respond r)
  | reads (i : Instr) (r : BusResult) : ExecNext s i (s.busAnswer r)
  | tlbins (page : Page) (frame : Frame) :
      ExecNext s (.tlbins page frame) ((s.tlbInsert page frame).busAnswer .done)
  | ptmark (page : Page) (frame : Frame) :
      ExecNext s (.ptmark page frame) ((s.ptMark page frame).busAnswer .done)
  | swapinWaits (page : Page) : ExecNext s (.swapin page) (s.awaitStore page)
  | swapinFails (page : Page) (e : Error) {a : BsAnswer} {rest : List BsAnswer} (ha : s.bsAnswers = a :: rest) :
      ExecNext s (.swapin page) (((s.takeAnswer rest).errorEntry e).busAnswer (.raised e))
  | swapinLoads (page : Page) {rest : List BsAnswer} (ha : s.bsAnswers = .ok :: rest)
      (hn : s.nextFrame.toNat < s.config.numFrames) :
      ExecNext s (.swapin page) ((s.swapped page rest).busAnswer (.loaded (s.nextFrame.setWidth 8)))
  | rdbyteFails (frame : Frame) (offset : Offset) (e : Error) :
      ExecNext s (.rdbyte frame offset) ((s.errorEntry e).busAnswer (.raised e))

section
variable {s t : State}

theorem execNext_of_execRdcsr {arg : Arg} (h : execRdcsr arg s = .next t) : ExecNext s (.rdcsr arg) t := by
  rcases execRdcsr_cases arg s with ⟨v, -, hr⟩ | ⟨-, hr⟩
  · cases hr.symm.trans h
    exact .rdcsr arg _
  · cases hr.symm.trans h
    exact .rdcsr arg _

theorem execNext_of_execSwapin {page : Page} (h : execSwapin page s = .next t) : ExecNext s (.swapin page) t := by
  unfold execSwapin at h
  rcases swapIn_cases page s with ⟨-, hs⟩ | ⟨rest, ha, hs⟩ | ⟨rest, ha, -, hs⟩ | ⟨rest, ha, hn, hs⟩ <;> rw [hs] at h
  · cases h
    exact .swapinWaits page
  · cases h
    exact .swapinFails page _ ha
  · cases h
    exact .swapinFails page _ ha
  · cases h
    exact .swapinLoads page ha hn

theorem execNext_of_execRdbyte {frame : Frame} {offset : Offset} (h : execRdbyte frame offset s = .next t) :
    ExecNext s (.rdbyte frame offset) t := by
  unfold execRdbyte at h
  rcases readByte_cases s frame offset with ⟨-, hr⟩ | ⟨-, b, -, hr⟩ | ⟨-, -, hr⟩ <;> rw [hr] at h
  · cases h
    exact .rdbyteFails frame offset _
  · cases h
    exact .reads _ _
  · cases h

/-- Every next state of an operation is one of `ExecNext`. -/
theorem execNext_of_exec {i : Instr} (h : exec i s = .next t) : ExecNext s i t := by
  cases i with
  | xlate addr => exact .xlate (xlateNext_of_execXlate h)
  | rdcsr arg => exact execNext_of_execRdcsr h
  | decode addr => cases h; exact .reads _ _
  | tlblkup page => cases h; exact .reads _ _
  | tlbins page frame => cases h; exact .tlbins page frame
  | ptlkup page => cases h; exact .reads _ _
  | ptmark page frame => cases h; exact .ptmark page frame
  | swapin page => exact execNext_of_execSwapin h
  | rdbyte frame offset => exact execNext_of_execRdbyte h

/-! ### One insertion at most -/

/-- The TLB of `t` is that of `s`, or that of `s` after one TLBINS (R123). -/
def TlbStep (s t : State) : Prop := t.tlb = s.tlb ∨ ∃ e, t.tlb = tlbAppend s.config.tlbCap s.tlb e

theorem XlateLeaf.tlbStep {page : Page} {hit fault : Bool} {f : Frame} {u : State}
    (leaf : XlateLeaf s page hit fault f u) : TlbStep s u := by
  cases leaf with
  | tlbHit ht => exact .inl rfl
  | ptHit ht hp => exact .inr ⟨_, rfl⟩
  | pageFault ht hp ha hn => exact .inr ⟨_, rfl⟩

theorem XlateNext.tlbStep {addr : Arg} (hx : XlateNext addr s t) : TlbStep s t := by
  cases hx with
  | refused => exact .inl rfl
  | waiting => exact .inl rfl
  | ioError => exact .inl rfl
  | capacityExhausted => exact .inl rfl
  | invalidAddress hh leaf hf => exact leaf.tlbStep
  | ok hh leaf hf hb => exact leaf.tlbStep

theorem ExecNext.tlbStep {i : Instr} (hx : ExecNext s i t) : TlbStep s t := by
  cases hx with
  | xlate hx => exact hx.tlbStep
  | tlbins page frame => exact .inr ⟨_, rfl⟩
  | rdcsr | reads | ptmark | swapinWaits | swapinFails | swapinLoads | rdbyteFails => exact .inl rfl

/-! ### What no operation writes -/

/-- Only the store's answers to come may differ, by the one consumed. -/
def SameEnvironment (s t : State) : Prop :=
  t.config = s.config ∧ t.bs = s.bs ∧ t.inputs = s.inputs ∧
  (t.bsAnswers = s.bsAnswers ∨ ∃ a, s.bsAnswers = a :: t.bsAnswers)

theorem XlateLeaf.sameEnvironment {page : Page} {hit fault : Bool} {f : Frame} {u : State}
    (leaf : XlateLeaf s page hit fault f u) : SameEnvironment s u := by
  refine ⟨leaf.config_eq, leaf.bs_eq, leaf.inputs_eq, ?_⟩
  cases leaf with
  | tlbHit ht => exact .inl rfl
  | ptHit ht hp => exact .inl rfl
  | pageFault ht hp ha hn => exact .inr ⟨_, ha⟩

theorem XlateNext.sameEnvironment {addr : Arg} (hx : XlateNext addr s t) : SameEnvironment s t := by
  cases hx with
  | refused => exact ⟨rfl, rfl, rfl, .inl rfl⟩
  | waiting => exact ⟨rfl, rfl, rfl, .inl rfl⟩
  | ioError hh ht hp ha => exact ⟨rfl, rfl, rfl, .inr ⟨_, ha⟩⟩
  | capacityExhausted hh ht hp ha hn => exact ⟨rfl, rfl, rfl, .inr ⟨_, ha⟩⟩
  | invalidAddress hh leaf hf => exact leaf.sameEnvironment
  | ok hh leaf hf hb => exact leaf.sameEnvironment

theorem ExecNext.sameEnvironment {i : Instr} (hx : ExecNext s i t) : SameEnvironment s t := by
  cases hx with
  | xlate hx => exact hx.sameEnvironment
  | swapinFails page e ha => exact ⟨rfl, rfl, rfl, .inr ⟨_, ha⟩⟩
  | swapinLoads page ha hn => exact ⟨rfl, rfl, rfl, .inr ⟨_, ha⟩⟩
  | rdcsr | reads | tlbins | ptmark | swapinWaits | rdbyteFails => exact ⟨rfl, rfl, rfl, .inl rfl⟩

end

/-- Settles O49: XLATE and SWAPIN consume at most one answer (`ExecNext.sameEnvironment`), every other operation
none. -/
theorem operationsReadTheStoreAtMostOnce : Obligations.OperationsReadTheStoreAtMostOnce := by
  intro i s t h
  have hx := execNext_of_exec h
  obtain ⟨hconf, hbs, hin, hans⟩ := hx.sameEnvironment
  refine ⟨hconf, hbs, hin, hans, ?_⟩
  cases hx with
  | xlate | swapinWaits | swapinFails | swapinLoads => trivial
  | rdcsr | tlbins | ptmark | rdbyteFails => rfl
  | reads i r => split <;> trivial

/-! ### Many insertions -/

/-- Dropping from a list that grows at its end: the entries dropped early and late are those dropped at once. -/
theorem drop_drop_append {α : Type} {l : List α} {k : Nat} (hk : k ≤ l.length) (m : List α) (n : Nat) :
    ((l.drop k) ++ m).drop n = (l ++ m).drop (k + n) := by
  rw [← List.drop_append_of_le_length hk, List.drop_drop]

/-- TLBINS of any entries leaves the newest of old and new. -/
theorem runTlbins_newest (es : List TlbEntry) {s : State} (h : s.tlb.length ≤ s.config.tlbCap) :
    ∃ t, runTlbins es s = .next t ∧ t.tlb = (s.tlb ++ es).drop (s.tlb.length + es.length - s.config.tlbCap) := by
  induction es generalizing s with
  | nil => exact ⟨s, rfl, by simp [h]⟩
  | cons e es ih =>
    have hcap := s.config.tlbCap_pos
    have hlen := length_tlbAppend hcap h e
    obtain ⟨t, ht, htlb⟩ := ih (s := (s.tlbInsert e.page e.frame).busAnswer .done) (by
      rw [State.busAnswer_tlb, State.tlbInsert_tlb, State.busAnswer_config, State.tlbInsert_config, hlen]
      exact Nat.min_le_left _ _)
    refine ⟨t, ht, htlb.trans ?_⟩
    have hone : s.tlb.length + 1 - s.config.tlbCap ≤ (s.tlb ++ [e]).length := by
      rw [List.length_append, List.length_singleton]
      omega
    rw [State.busAnswer_tlb, State.tlbInsert_tlb, State.busAnswer_config, State.tlbInsert_config, hlen,
      tlbAppend_eq_drop hcap h, drop_drop_append hone, List.append_assoc, List.singleton_append,
      List.length_cons]
    congr 1
    omega

/-- Settles O18: many insertions by `runTlbins_newest`, and one operation by `ExecNext.tlbStep`. -/
theorem tlbHoldsTheNewestEntries : Obligations.TlbHoldsTheNewestEntries := by
  refine ⟨fun s es => runTlbins_newest es, fun i s t h => ?_⟩
  rcases (execNext_of_exec h).tlbStep with ht | ⟨e, ht⟩
  · exact .inl ht
  · refine .inr ⟨e, ?_⟩
    by_cases hfull : s.tlb.length = s.config.tlbCap
    · exact .inl ⟨hfull, ht.trans (tlbAppend_of_full hfull e)⟩
    · exact .inr ⟨hfull, ht.trans (tlbAppend_of_not_full hfull e)⟩

/-- Settles O19: of capacity + 1 entries the first is dropped (`runTlbins_newest`), and distinct pages are each found
with their frame. -/
theorem tlbFifoLaw : Obligations.TlbFifoLaw := by
  intro s e es hs hlen hd
  obtain ⟨t, ht, htlb⟩ := runTlbins_newest (e :: es) (s := s) (by rw [hs]; exact Nat.zero_le _)
  have hone : s.tlb.length + (e :: es).length - s.config.tlbCap = 1 := by
    rw [hs, List.length_nil, List.length_cons, hlen]
    omega
  rw [hone, hs, List.nil_append, List.drop_one, List.tail_cons] at htlb
  rw [List.map_cons, List.nodup_cons] at hd
  obtain ⟨hfirst, hrest⟩ := hd
  refine ⟨t, ht, htlb, by rw [htlb, hlen], ?_, fun d hd => ?_⟩
  · rw [State.tlbLookup, htlb, tlbFind_eq_none_iff]
    exact fun d hd heq => hfirst (heq ▸ List.mem_map_of_mem hd)
  · rw [State.tlbLookup, htlb]
    exact tlbFind_of_mem hrest hd

end Sys2Proof.Machine
end

section
/-! PROOFS. What only reset undoes: whichever operation runs, nothing that was reached is given back, and the first
error stays (70_reset_and_hazards.md section 1; 10_state.md R36; 60_exceptions.md R208). -/

namespace Sys2Proof.Machine

section
variable {s t u : State}

/-! ### A step that is no reset -/

/-- A step that is no reset is idle, gives one answer on the response port, or runs an operation. -/
theorem step_of_noReset (hn : NoReset s) (h : step s = .next t) :
    t = s ∨ (∃ r rest, t = (s.respond r).retire rest) ∨ ∃ i v rest, exec i s = .next v ∧ t = v.retire rest := by
  rcases step_cases s with ⟨-, hs⟩ | ⟨rest, ha, -⟩ | ⟨w, rest, -, -, -, hs⟩ | ⟨w, rest, addr, -, -, hs⟩ |
    ⟨w, rest, arg, -, -, hs⟩ | ⟨w, rest, i, -, -, hs⟩ | ⟨w, rest, -, -, -, hs⟩
  · cases hs.symm.trans h
    exact .inl rfl
  · exact absurd ha (hn rest)
  · cases hs.symm.trans h
    exact .inr (.inl ⟨_, rest, rfl⟩)
  · obtain ⟨v, hv, rfl⟩ := retireOutcome_eq_next (hs.symm.trans h)
    exact .inr (.inr ⟨.xlate addr, v, rest, hv, rfl⟩)
  · obtain ⟨v, hv, rfl⟩ := retireOutcome_eq_next (hs.symm.trans h)
    exact .inr (.inr ⟨.rdcsr arg, v, rest, hv, rfl⟩)
  · obtain ⟨v, hv, rfl⟩ := retireOutcome_eq_next (hs.symm.trans h)
    exact .inr (.inr ⟨i, v, rest, hv, rfl⟩)
  · cases hs.symm.trans h

/-- Retiring writes the inputs and nothing else. -/
theorem State.retire_frame (s : State) (rest : List Input) :
    s.retire rest = { s with inputs := (s.retire rest).inputs } := by
  rcases s.retire_cases rest with h | h <;> rw [h]

/-! ### Nothing is given back -/

/-- A saturating counter does not go down. -/
theorem le_satAdd (c : Count) (event : Bool) : c.toNat ≤ (satAdd c event).toNat := by
  rw [satAdd_toNat]
  exact Nat.le_min.2 ⟨Nat.le_add_right _ _, Nat.le_of_lt_succ c.isLt⟩

/-- From `s` to `t` nothing is emptied, invalidated, freed, lowered or left (R230). -/
structure NoUndo (s t : State) : Prop where
  tlb : s.tlb.length ≤ t.tlb.length
  pt : ∀ p : Page, s.ptLookup p ≠ none → t.ptLookup p ≠ none
  frames : s.nextFrame.toNat ≤ t.nextFrame.toNat
  total : s.totalCount.toNat ≤ t.totalCount.toNat
  faults : s.faultCount.toNat ≤ t.faultCount.toNat
  hits : s.hitCount.toNat ≤ t.hitCount.toNat
  halted : s.halted = true → t.halted = true

namespace NoUndo

/-- The ports, the answers and the inputs are no part of it. -/
theorem of_ports (ht : t = { s with rsp := t.rsp, bus := t.bus, bsReq := t.bsReq, bsAnswers := t.bsAnswers,
                                    inputs := t.inputs }) : NoUndo s t := by
  rw [ht]
  exact ⟨Nat.le_refl _, fun _ hp => hp, Nat.le_refl _, Nat.le_refl _, Nat.le_refl _, Nat.le_refl _, fun hh => hh⟩

theorem trans (h : NoUndo s t) (g : NoUndo t u) : NoUndo s u where
  tlb := h.tlb.trans g.tlb
  pt := fun p hp => g.pt p (h.pt p hp)
  frames := h.frames.trans g.frames
  total := h.total.trans g.total
  faults := h.faults.trans g.faults
  hits := h.hits.trans g.hits
  halted := fun hh => g.halted (h.halted hh)

theorem tlbInsert (s : State) (p : Page) (f : Frame) : NoUndo s (s.tlbInsert p f) where
  tlb := length_le_tlbAppend s.config.tlbCap_pos s.tlb _
  pt := fun _ hp => hp
  frames := Nat.le_refl _
  total := Nat.le_refl _
  faults := Nat.le_refl _
  hits := Nat.le_refl _
  halted := fun hh => hh

theorem ptMark (s : State) (p : Page) (f : Frame) : NoUndo s (s.ptMark p f) where
  tlb := Nat.le_refl _
  pt := by
    intro q hq
    rw [ptLookup_ptMark]
    split
    · nofun
    · exact hq
  frames := Nat.le_refl _
  total := Nat.le_refl _
  faults := Nat.le_refl _
  hits := Nat.le_refl _
  halted := fun hh => hh

/-- SWAPIN marks a page and takes a frame; the counter of frames does not wrap (`nextFrame_succ_toNat`). -/
theorem swapped (hn : s.nextFrame.toNat < s.config.numFrames) (p : Page) (rest : List BsAnswer) :
    NoUndo s (s.swapped p rest) where
  tlb := Nat.le_refl _
  pt := (ptMark s p (s.nextFrame.setWidth 8)).pt
  frames := by
    rw [State.swapped_nextFrame, nextFrame_succ_toNat hn]
    exact Nat.le_succ _
  total := Nat.le_refl _
  faults := Nat.le_refl _
  hits := Nat.le_refl _
  halted := fun hh => hh

theorem errorEntry (s : State) (e : Error) : NoUndo s (s.errorEntry e) where
  tlb := Nat.le_refl _
  pt := fun _ hp => hp
  frames := Nat.le_refl _
  total := Nat.le_refl _
  faults := Nat.le_refl _
  hits := Nat.le_refl _
  halted := fun _ => rfl

theorem countXlate (s : State) (hit fault : Bool) : NoUndo s (s.countXlate hit fault) where
  tlb := Nat.le_refl _
  pt := fun _ hp => hp
  frames := Nat.le_refl _
  total := le_satAdd _ _
  faults := le_satAdd _ _
  hits := le_satAdd _ _
  halted := fun hh => hh

end NoUndo

theorem XlateLeaf.noUndo {page : Page} {hit fault : Bool} {f : Frame} (leaf : XlateLeaf s page hit fault f u) :
    NoUndo s u := by
  cases leaf with
  | tlbHit ht => exact .of_ports rfl
  | ptHit ht hp => exact .tlbInsert s _ _
  | pageFault ht hp ha hn => exact (NoUndo.swapped hn _ _).trans (.tlbInsert _ _ _)

theorem XlateNext.noUndo {addr : Arg} (hx : XlateNext addr s t) : NoUndo s t := by
  cases hx with
  | refused => exact .of_ports rfl
  | waiting => exact .of_ports rfl
  | ioError | capacityExhausted =>
    exact ((NoUndo.of_ports rfl : NoUndo s (s.takeAnswer _)).trans (.errorEntry _ _)).trans (.of_ports rfl)
  | invalidAddress hh leaf hf => exact (leaf.noUndo.trans (.errorEntry _ _)).trans (.of_ports rfl)
  | ok hh leaf hf hb => exact (leaf.noUndo.trans (.countXlate _ _ _)).trans (.of_ports rfl)

theorem ExecNext.noUndo {i : Instr} (hx : ExecNext s i t) : NoUndo s t := by
  cases hx with
  | xlate hx => exact hx.noUndo
  | rdcsr | reads | swapinWaits => exact .of_ports rfl
  | tlbins page frame => exact (NoUndo.tlbInsert s page frame).trans (.of_ports rfl)
  | ptmark page frame => exact (NoUndo.ptMark s page frame).trans (.of_ports rfl)
  | swapinFails page e ha =>
    exact ((NoUndo.of_ports rfl : NoUndo s (s.takeAnswer _)).trans (.errorEntry _ e)).trans (.of_ports rfl)
  | swapinLoads page ha hn => exact (NoUndo.swapped hn page _).trans (.of_ports rfl)
  | rdbyteFails frame offset e => exact (NoUndo.errorEntry s e).trans (.of_ports rfl)

/-- Retiring a command gives nothing back. -/
theorem NoUndo.retire (h : NoUndo s t) (rest : List Input) : NoUndo s (t.retire rest) := by
  refine h.trans (.of_ports ?_)
  rw [State.retire_frame]

/-! ### The first error stays -/

theorem XlateNext.eq_of_halted {addr : Arg} (hx : XlateNext addr s t) (hh : s.halted = true) :
    t = s.respond (Response.bare .halted addr) := by
  cases hx with
  | refused => rfl
  | waiting hh' | ioError hh' | capacityExhausted hh' | invalidAddress hh' | ok hh' =>
    rw [hh'] at hh
    cases hh

/-- On a halted block an operation changes neither HALTED nor CAUSE: an error makes no second entry. -/
theorem ExecNext.keeps_first_error {i : Instr} (hx : ExecNext s i t) (hh : s.halted = true) :
    t.halted = true ∧ t.cause = s.cause := by
  cases hx with
  | xlate hx =>
    rw [hx.eq_of_halted hh]
    exact ⟨hh, rfl⟩
  | rdcsr | reads | tlbins | ptmark | swapinWaits | swapinLoads => exact ⟨hh, rfl⟩
  | swapinFails => exact ⟨rfl, if_pos hh⟩
  | rdbyteFails => exact ⟨rfl, if_pos hh⟩

end

/-- Settles O45: a step that is no reset (`step_of_noReset`) answers or runs one operation, and neither gives anything
back (`ExecNext.noUndo`). -/
theorem onlyResetUndoes : Obligations.OnlyResetUndoes := by
  intro s t hn h
  have hundo : NoUndo s t := by
    rcases step_of_noReset hn h with rfl | ⟨r, rest, rfl⟩ | ⟨i, v, rest, hv, rfl⟩
    · exact .of_ports rfl
    · exact (NoUndo.of_ports rfl : NoUndo s (s.respond r)).retire rest
    · exact (execNext_of_exec hv).noUndo.retire rest
  obtain ⟨htlb, hpt, hframes, htotal, hfaults, hhits, hhalted⟩ := hundo
  exact ⟨htlb, hpt, hframes, htotal, hfaults, hhits, hhalted⟩

/-- Settles O57: an operation keeps the first error (`ExecNext.keeps_first_error`), an answer and retiring write
neither register. -/
theorem firstErrorIsKept : Obligations.FirstErrorIsKept := by
  intro s t hh
  refine ⟨fun i h => (execNext_of_exec h).keeps_first_error hh, fun hn h => ?_⟩
  rcases step_of_noReset hn h with rfl | ⟨r, rest, rfl⟩ | ⟨i, v, rest, hv, rfl⟩
  · exact ⟨hh, rfl⟩
  · rw [State.retire_frame]
    exact ⟨hh, rfl⟩
  · rw [State.retire_frame]
    exact (execNext_of_exec hv).keeps_first_error hh

end Sys2Proof.Machine
end

section
/-! PROOFS. What a step from a well-formed state leaves of the page table and of memory, and the one response of a
host command (10_state.md R29; 43_physical_memory.md R160; 30_encoding.md R80; 70_reset_and_hazards.md R244). -/

namespace Sys2Proof.Machine

section
variable {s t : State}

/-! ### Page table and memory -/

/-- Page table and memory stay, or a page that was not loaded is loaded into the next frame. -/
def TablesStep (s t : State) : Prop :=
  (t.pt = s.pt ∧ t.pm = s.pm) ∨
  ∃ page rest, s.ptLookup page = none ∧ s.nextFrame.toNat < s.config.numFrames ∧
    t.pt = (s.swapped page rest).pt ∧ t.pm = (s.swapped page rest).pm

theorem XlateLeaf.tablesStep {u : State} {page : Page} {hit fault : Bool} {f : Frame}
    (leaf : XlateLeaf s page hit fault f u) : TablesStep s u := by
  cases leaf with
  | tlbHit ht => exact .inl ⟨rfl, rfl⟩
  | ptHit ht hp => exact .inl ⟨rfl, rfl⟩
  | @pageFault rest ht hp ha hn => exact .inr ⟨page, rest, hp, hn, rfl, rfl⟩

theorem XlateNext.tablesStep {addr : Arg} (hx : XlateNext addr s t) : TablesStep s t := by
  cases hx with
  | refused | waiting | ioError | capacityExhausted => exact .inl ⟨rfl, rfl⟩
  | invalidAddress hh leaf hf => exact leaf.tablesStep
  | ok hh leaf hf hb => exact leaf.tablesStep

/-- Driven by the host, a step that is no reset does no more to the tables than an XLATE. -/
theorem tablesStep_of_step (hd : HostDriven s) (hn : NoReset s) (h : step s = .next t) : TablesStep s t := by
  rcases step_of_hostDriven hd h with ⟨rest, ha, -⟩ | rfl | ⟨c, rest, r, -, rfl⟩ | ⟨c, rest, addr, u, -, hx, rfl⟩
  · exact absurd ha (hn rest)
  · exact .inl ⟨rfl, rfl⟩
  · rw [State.retire_frame]
    exact .inl ⟨rfl, rfl⟩
  · rw [State.retire_frame]
    exact hx.tablesStep

/-- A valid entry is of another page than the one loaded. -/
theorem TablesStep.ptLookup_eq (h : TablesStep s t) {p : Page} {f : Frame} (hp : s.ptLookup p = some f) :
    t.ptLookup p = some f := by
  rcases h with ⟨hpt, -⟩ | ⟨page, rest, hnone, -, hpt, -⟩
  · rw [ptLookup_congr hpt, hp]
  · have hne : p ≠ page := by
      rintro rfl
      rw [hnone] at hp
      cases hp
    rw [ptLookup_congr hpt, ptLookup_swapped, if_neg hne, hp]

/-- A byte with a value stands in a cell. -/
theorem exists_mem_of_readCell {m : List Host.Cell} {a : Nat} {b : Byte} (h : readCell m a = some b) :
    ∃ c ∈ m, c.1 = a := by
  by_contra hno
  rw [readCell_none_of_forall (fun c hc heq => hno ⟨c, hc, heq⟩)] at h
  cases h

/-- A byte with a value lies below the frame that is filled. -/
theorem TablesStep.readCell_eq (h : TablesStep s t) (hs : PmInv s) {a : Nat} {b : Byte}
    (ha : readCell s.pm a = some b) : readCell t.pm a = some b := by
  rcases h with ⟨-, hpm⟩ | ⟨page, rest, -, hn, -, hpm⟩
  · rw [hpm, ha]
  · obtain ⟨c, hc, rfl⟩ := exists_mem_of_readCell ha
    rw [hpm, readCell_swapped_outside hn page rest (.inl (hs.in_allocated c hc)), ha]

/-! ### One response -/

/-- An XLATE is answered with the echo of its operand, or waits. -/
theorem XlateNext.answered_or_waiting {addr : Arg} (hx : XlateNext addr s t) :
    (t.bsReq = none ∧ ∃ r, t.rsp = some r ∧ r.addr = addr) ∨
    (s.bsAnswers = [] ∧ t = s.awaitStore (pageOf addr)) := by
  cases hx with
  | waiting hh ht hp ha => exact .inr ⟨ha, rfl⟩
  | refused | ioError | capacityExhausted | invalidAddress | ok => exact .inl ⟨rfl, _, rfl, rfl⟩

/-- RDCSR is answered with the echo of its operand. -/
theorem execRdcsr_answered {arg : Arg} (h : execRdcsr arg s = .next t) :
    t.bsReq = none ∧ ∃ r, t.rsp = some r ∧ r.addr = arg := by
  rcases execRdcsr_cases arg s with ⟨v, -, hr⟩ | ⟨-, hr⟩
  all_goals
    cases hr.symm.trans h
    exact ⟨rfl, _, rfl, rfl⟩

end

/-- Settles O43: a valid entry stays (`TablesStep.ptLookup_eq`), and the TLB agrees with it as the state after the
step is well formed again. -/
theorem framesAreStable : Obligations.FramesAreStable := by
  intro s t p f hs hn h hp
  have hpt := (tablesStep_of_step hs.host hn h).ptLookup_eq hp
  refine ⟨hpt, ?_⟩
  cases ht : t.tlbLookup p with
  | none => exact .inl rfl
  | some g =>
    have hagree := (everyStepKeepsWellFormedness s t hs h).tlb.ptLookup_of_tlbLookup ht
    exact .inr (hagree.symm.trans hpt)

/-- Settles O44: only the next free frame is ever written (`TablesStep.readCell_eq`). -/
theorem loadedBytesNeverChange : Obligations.LoadedBytesNeverChange :=
  fun _ _ _ _ hs hn h => (tablesStep_of_step hs.host hn h).readCell_eq hs.pm

/-- Settles O48: an illegal word and RDCSR are answered at once, XLATE is answered or waits
(`XlateNext.answered_or_waiting`). -/
theorem oneResponsePerCommand : Obligations.OneResponsePerCommand := by
  intro s w rest hs hin hidle
  have ha := State.abandoned_of_idle hidle rest
  have answered {u : State} (hstep : step s = .next (u.retire rest))
      (hu : u.bsReq = none ∧ ∃ r, u.rsp = some r ∧ r.addr = argOf w) :
      ∃ t, step s = .next t ∧ ((t.inputs = rest ∧ t.bsReq = none ∧ ∃ r, t.rsp = some r ∧ r.addr = argOf w) ∨
        (s.bsAnswers = [] ∧ t = { s with bsReq := some (pageOf (argOf w)) })) := by
    obtain ⟨hreq, hrsp⟩ := hu
    rw [State.retire_of_answered hreq] at hstep
    exact ⟨_, hstep, .inl ⟨rfl, hreq, hrsp⟩⟩
  cases hd : hostDecode w with
  | reject r => exact answered (step_of_host_reject hin ha hd) ⟨rfl, _, rfl, rfl⟩
  | ok i =>
    have hstep := step_of_host_ok hin ha hd
    obtain ⟨hdec, hi⟩ := hostDecode_ok hd
    rcases decode_ok_of_hostIssuable hdec hi with ⟨-, rfl⟩ | ⟨-, rfl, -⟩
    · obtain ⟨u, hu⟩ := hs.execXlate_next (argOf w)
      rw [exec, hu] at hstep
      rcases (xlateNext_of_execXlate hu).answered_or_waiting with hans | ⟨hnone, rfl⟩
      · exact answered hstep hans
      · exact ⟨_, hstep, .inr ⟨hnone, rfl⟩⟩
    · obtain ⟨u, hu⟩ := execRdcsr_next (argOf w) s
      rw [exec, hu] at hstep
      exact answered hstep (execRdcsr_answered hu)

end Sys2Proof.Machine
end

section
/-! PROOFS. A step by its input: a decoded word, a reset, a wait for the store and its end, no input, and REPORT
(70_reset_and_hazards.md R230, R231, R240, R244; 60_exceptions.md R220; 30_encoding.md R102). -/

namespace Sys2Proof.Machine

section
variable {s : State} {w : Word} {i : Instr} {rest : List Input}

/-! ### A word that decodes -/

/-- A micro-operation on the bus is run and retired. -/
theorem step_of_bus_ok (hin : s.inputs = .bus w :: rest) (ha : s.abandoned rest = false)
    (hd : busDecode w = .ok i) : step s = retireOutcome rest (exec i s) := by
  simp [step, State.accept_bus hin ha, acceptBus, hd]

theorem finishXlate_ne_refused (addr : Arg) (hit fault : Bool) (f : Frame) (s : State) (r : Refusal) :
    finishXlate addr hit fault f s ≠ .refused r := by
  rcases finishXlate_cases addr hit fault f s with ⟨-, hr⟩ | ⟨-, b, -, hr⟩ | ⟨-, -, hr⟩ <;> rw [hr] <;> nofun

theorem execXlate_ne_refused (addr : Arg) (s : State) (r : Refusal) : execXlate addr s ≠ .refused r := by
  rcases execXlate_cases addr s with ⟨-, hr⟩ | ⟨-, f, -, hr⟩ | ⟨-, -, f, -, hr⟩ | ⟨-, -, -, -, hr⟩ |
    ⟨-, -, -, rest, -, hr⟩ | ⟨-, -, -, rest, -, -, hr⟩ | ⟨-, -, -, rest, -, -, hr⟩ <;> rw [hr]
  · nofun
  · exact finishXlate_ne_refused _ _ _ _ _ r
  · exact finishXlate_ne_refused _ _ _ _ _ r
  · nofun
  · nofun
  · nofun
  · exact finishXlate_ne_refused _ _ _ _ _ r

/-- No operation is refused by the model. -/
theorem exec_ne_refused (i : Instr) (s : State) (r : Refusal) : exec i s ≠ .refused r := by
  cases i with
  | xlate addr => exact execXlate_ne_refused addr s r
  | rdcsr arg =>
    obtain ⟨t, ht⟩ := execRdcsr_next arg s
    rw [exec, ht]
    nofun
  | swapin page =>
    rw [exec, execSwapin]
    cases s.swapIn page <;> nofun
  | rdbyte frame offset =>
    rw [exec, execRdbyte]
    cases s.readByte frame offset <;> nofun
  | decode | tlblkup | tlbins | ptlkup | ptmark => nofun

/-! ### Reset -/

theorem step_of_rst (hin : s.inputs = .rst :: rest) : step s = .next (s.restart rest) := by
  simp [step, State.accept, hin]

/-- A reset next after a waiting command is the reset alone. -/
theorem step_of_abandoned {c : Input} (hc : c = .host w ∨ c = .bus w) (hin : s.inputs = c :: .rst :: rest)
    (hreq : s.bsReq ≠ none) (hans : s.bsAnswers = []) : step s = .next (s.restart rest) := by
  have ha : s.abandoned (.rst :: rest) = true := by
    simp [State.abandoned, hans, Option.isSome_iff_ne_none.2 hreq]
  rcases hc with rfl | rfl
  · simp [step, State.accept, hin, ha]
  · simp [step, State.accept, hin, ha]

/-! ### Waiting for the store -/

/-- An XLATE that needs the store and has no answer requests the page, and stays at the inputs. -/
theorem step_of_waiting {addr : Arg} (hin : s.inputs = .host w :: rest) (ha : s.abandoned rest = false)
    (hd : hostDecode w = .ok (.xlate addr)) (hh : s.halted = false) (ht : s.tlbLookup (pageOf addr) = none)
    (hp : s.ptLookup (pageOf addr) = none) (hans : s.bsAnswers = []) :
    step s = .next (s.awaitStore (pageOf addr)) := by
  rw [step_of_host_ok hin ha hd, exec, execXlate_waiting hh ht hp hans, retireOutcome,
    State.retire_of_waiting rfl]

/-- A state that its step keeps, any number of steps keep. -/
theorem runSteps_of_step_eq (h : step s = .next s) (n : Nat) : runSteps n s = .next s := by
  induction n with
  | zero => rfl
  | succ n ih => rw [runSteps, h]; exact ih

/-! ### REPORT -/

/-- An RDCSR of a defined register by an idle block is answered with the register's value in one step. -/
theorem step_of_rdcsr {arg : Arg} {v : Count} (hin : s.inputs = .host (encode (.rdcsr arg)) :: rest)
    (hidle : s.bsReq = none) (hwf : (Instr.rdcsr arg).wellFormed = true) (hv : s.csrRead (csrOf arg) = some v) :
    step s = .next { s with
      rsp := some { Response.bare .ok arg with data := v }, inputs := rest } := by
  have hd : hostDecode (encode (.rdcsr arg)) = .ok (.rdcsr arg) := hostDecode_of_decode (decode_encode hwf) rfl
  rw [step_of_host_ok hin (State.abandoned_of_idle hidle rest) hd, exec, execRdcsr_of_some hv, retireOutcome,
    State.retire_respond, ← hidle]

end

/-! ### The statements -/

/-- Settles O9: the step is the operation, retired (`step_of_host_ok`, `step_of_bus_ok`), and no operation is refused
(`exec_ne_refused`). -/
theorem stepRunsDecodedInstruction : Obligations.StepRunsDecodedInstruction := by
  intro s w i rest ha hword
  have hstep : step s = retireOutcome rest (exec i s) := by
    rcases hword with ⟨hin, hd⟩ | ⟨hin, hd⟩
    · exact step_of_host_ok hin ha hd
    · exact step_of_bus_ok hin ha hd
  refine ⟨fun t ht hreq => ?_, fun t ht hreq => ?_, fun r hr => ?_, exec_ne_refused i s⟩
  · rw [hstep, ht, retireOutcome, State.retire_of_answered hreq]
  · rw [hstep, ht, retireOutcome, State.retire_of_waiting (Option.isSome_iff_ne_none.2 hreq)]
  · rw [hstep, hr, retireOutcome]

/-- Settles O7: the step is `State.restart`, whose fields are the reset values. -/
theorem resetInputRestarts : Obligations.ResetInputRestarts := by
  intro s rest hin
  exact ⟨_, step_of_rst hin, rfl, State.ptLookup_reset, readCell_nil, rfl, rfl, rfl, rfl, rfl, rfl, rfl, rfl, rfl,
    rfl, rfl, rfl, rfl⟩

/-- Settles O8: both steps are the restart with the inputs after the reset (`step_of_abandoned`, `step_of_rst`). -/
theorem resetAbandonsWaitingCommand : Obligations.ResetAbandonsWaitingCommand := by
  intro s w c rest hc hin hreq hans
  have hstep := step_of_abandoned hc hin hreq hans
  refine ⟨?_, _, hstep, rfl, rfl, rfl⟩
  rw [hstep, step_of_rst (s := { s with inputs := .rst :: rest }) rfl]
  rfl

/-- Settles O10: with no input the block is idle, and an idle step changes nothing. -/
theorem idleBlockHoldsItsState : Obligations.IdleBlockHoldsItsState := by
  intro s hin
  simp [step, State.accept, hin]

/-- Settles O13: the first step requests the page, every later one finds the same (`step_of_waiting`), and a reset
next abandons the command (`step_of_abandoned`). -/
theorem blockWaitsForTheStore : Obligations.BlockWaitsForTheStore := by
  intro s w addr rest n hin hd hh ht hp hans
  refine ⟨fun hrst => ?_, fun later hrest hidle => ?_⟩
  · have goes_on (u : State) : u.abandoned rest = false := by simp [State.abandoned, hrst]
    have hstep := step_of_waiting hin (goes_on s) hd hh ht hp hans
    have hagain : step (s.awaitStore (pageOf addr)) = .next (s.awaitStore (pageOf addr)) :=
      step_of_waiting (s := s.awaitStore (pageOf addr)) hin (goes_on _) hd hh ht hp hans
    rw [runSteps, hstep]
    exact runSteps_of_step_eq hagain n
  · have hstep := step_of_waiting hin (State.abandoned_of_idle hidle rest) hd hh ht hp hans
    have hreset : step (s.awaitStore (pageOf addr)) = .next ((s.awaitStore (pageOf addr)).restart later) :=
      step_of_abandoned (s := s.awaitStore (pageOf addr)) (.inl rfl) (hrest ▸ hin) nofun hans
    refine ⟨hstep, ?_⟩
    simp only [runSteps, hstep, hreset, State.restart, State.awaitStore_bsAnswers, hans]
    rfl

/-- Settles O37: three steps of `step_of_rdcsr`, none of which writes a counter. -/
theorem reportReadsTheThreeCounters : Obligations.ReportReadsTheThreeCounters := by
  intro s rest hin hidle
  exact ⟨_, _, _, step_of_rdcsr (arg := 1#32) hin hidle (by decide) rfl,
    step_of_rdcsr (arg := 2#32) rfl hidle (by decide) rfl,
    step_of_rdcsr (arg := 3#32) rfl hidle (by decide) rfl, rfl, rfl, rfl, rfl⟩

end Sys2Proof.Machine
end

section
/-! PROOFS. The rates of a run (44_translator.md R181). -/

namespace Sys2Proof.Machine

/-- The rate of a part of the counted translations. -/
theorem rate_of_le {n total : Count} (ht : total ≠ 0#32) (hle : n ≤ total) :
    ∃ p : Rat, rate n total = some p ∧ 0 ≤ p ∧ p ≤ 1 := by
  have hcast : (n.toNat : Rat) ≤ total.toNat := by exact_mod_cast BitVec.le_def.1 hle
  exact ⟨_, if_neg ht, by positivity, div_le_one_of_le₀ hcast (by positivity)⟩

/-- Settles O56: faults and hits are parts of the total (`rate_of_le`). -/
theorem ratesLieBetweenZeroAndOne : Obligations.RatesLieBetweenZeroAndOne := by
  refine ⟨fun s h ht => ?_, fun n => if_pos rfl⟩
  obtain ⟨p, hp, hp0, hp1⟩ := rate_of_le ht h.counts.fault_le
  obtain ⟨q, hq, hq0, hq1⟩ := rate_of_le ht h.counts.hit_le
  exact ⟨p, q, hp, hq, hp0, hp1, hq0, hq1⟩

end Sys2Proof.Machine
end

section
/-! PROOFS. A run of translations: each distinct page is loaded once, and the run ends well while the frames last
(70_reset_and_hazards.md R242, R244; 95_test_vectors.md E8). -/

namespace Sys2Proof.Machine

/-! ### The pages still to be loaded -/

/-- The distinct pages of a trace that are not loaded. -/
def freshPages (s : State) (trace : List Arg) : Finset Page :=
  ((trace.map pageOf).filter (fun p => (s.ptLookup p).isNone)).toFinset

theorem mem_freshPages {s : State} {trace : List Arg} {p : Page} :
    p ∈ freshPages s trace ↔ (∃ a ∈ trace, pageOf a = p) ∧ s.ptLookup p = none := by
  simp [freshPages]

/-- When a translation has loaded its page and no other, the pages still to be loaded are one less, or as many where
it was loaded before. -/
theorem card_freshPages_cons {s t : State} {a : Arg} {trace : List Arg}
    (h : ∀ q, t.ptLookup q = none ↔ s.ptLookup q = none ∧ q ≠ pageOf a) :
    (freshPages s (a :: trace)).card = (s.ptLookup (pageOf a)).isNone.toNat + (freshPages t trace).card := by
  cases hp : s.ptLookup (pageOf a) with
  | none =>
    have hnot : pageOf a ∉ freshPages t trace := by simp [mem_freshPages, h]
    have hinsert : freshPages s (a :: trace) = insert (pageOf a) (freshPages t trace) := by
      ext q
      by_cases hq : q = pageOf a
      · simp [mem_freshPages, hq, hp]
      · simp [mem_freshPages, h, hq, Ne.symm hq]
    rw [hinsert, Finset.card_insert_of_notMem hnot]
    exact Nat.add_comm _ _
  | some f =>
    have hsame : freshPages s (a :: trace) = freshPages t trace := by
      ext q
      by_cases hq : q = pageOf a
      · simp [mem_freshPages, hq, hp, h]
      · simp [mem_freshPages, h, hq, Ne.symm hq]
    rw [hsame]
    exact (Nat.zero_add _).symm

/-! ### What a leaf does to the tables, in numbers -/

namespace XlateLeaf

variable {s u : State} {page : Page} {hit fault : Bool} {f : Frame}

/-- From a well-formed state the page faults exactly when it is not loaded. -/
theorem fault_eq (leaf : XlateLeaf s page hit fault f u) (h : TlbInv s) :
    fault = (s.ptLookup page).isNone := by
  cases leaf with
  | tlbHit ht => rw [h.ptLookup_of_tlbLookup ht]; rfl
  | ptHit ht hp => rw [hp]; rfl
  | pageFault ht hp ha hn => rw [hp]; rfl

/-- After a leaf the page is loaded, and of the other pages those that were. -/
theorem ptLookup_eq_none_iff (leaf : XlateLeaf s page hit fault f u) (h : TlbInv s) (q : Page) :
    u.ptLookup q = none ↔ s.ptLookup q = none ∧ q ≠ page := by
  by_cases hq : q = page
  · simp [hq, leaf.ptLookup_eq h]
  · cases leaf with
    | tlbHit ht => simp [hq]
    | ptHit ht hp => simp [hq, ptLookup_congr (State.tlbInsert_pt s page f)]
    | pageFault ht hp ha hn => simp [hq, ptLookup_congr (State.tlbInsert_pt _ page _), ptLookup_swapped]

/-- Of at least `n + 1` answers that are Ok, a leaf leaves at least `n`. -/
theorem answers_left (leaf : XlateLeaf s page hit fault f u) {m n : Nat} (hm : n + 1 ≤ m)
    (ha : s.bsAnswers = List.replicate m .ok) : ∃ k, n ≤ k ∧ u.bsAnswers = List.replicate k .ok := by
  obtain ⟨m, rfl⟩ := Nat.exists_eq_add_of_le' (Nat.le_of_add_left_le hm)
  cases leaf with
  | tlbHit ht => exact ⟨m + 1, by omega, ha⟩
  | ptHit ht hp => exact ⟨m + 1, by omega, ha⟩
  | pageFault ht hp ha' hn =>
    rw [ha, List.replicate_succ, List.cons.injEq] at ha'
    exact ⟨m, by omega, ha'.2.symm⟩

end XlateLeaf

/-! ### One translation of a run -/

/-- The commands of a trace of addresses. -/
def xlateInputs (trace : List Arg) : List Input := trace.map (fun a => .host (encode (.xlate a)))

/-- A running block with a trace to translate, and a store that answers each read. -/
structure Running (s : State) (trace : List Arg) : Prop where
  inv : Inv s
  running : s.halted = false
  idle : s.bsReq = none
  inputs : s.inputs = xlateInputs trace
  answers : ∃ m, trace.length ≤ m ∧ s.bsAnswers = List.replicate m .ok

/-- An idle block runs the XLATE at its inputs. -/
theorem step_of_xlate {s : State} {a : Arg} {rest : List Input}
    (hin : s.inputs = .host (encode (.xlate a)) :: rest) (hidle : s.bsReq = none) :
    step s = retireOutcome rest (execXlate a s) :=
  step_of_host_ok hin (State.abandoned_of_idle hidle rest) (hostDecode_of_decode (decode_encode rfl) rfl)

/-- The translation of a run has loaded its page where needed, and the run goes on. -/
structure GoesOn (s t : State) (a : Arg) (trace : List Arg) : Prop where
  step_eq : step s = .next t
  running : Running t trace
  config : t.config = s.config
  tables : ∀ q, t.ptLookup q = none ↔ s.ptLookup q = none ∧ q ≠ pageOf a
  frames : t.nextFrame.toNat = s.nextFrame.toNat + (s.ptLookup (pageOf a)).isNone.toNat
  total : t.totalCount.toNat = min (s.totalCount.toNat + 1) countMax

/-- The translation of a run found no free frame for its page, and the block is halted. -/
structure RunsOut (s t : State) (a : Arg) (trace : List Arg) : Prop where
  step_eq : step s = .next t
  inputs : t.inputs = xlateInputs trace
  idle : t.bsReq = none
  halted : t.halted = true
  cause : t.cause = 2#3
  fresh : s.ptLookup (pageOf a) = none
  full : s.config.numFrames ≤ s.nextFrame.toNat
  frames : t.nextFrame = s.nextFrame

theorem XlateLeaf.goesOn {s u : State} {a : Arg} {trace : List Arg} {hit fault : Bool} {f : Frame} {b : Byte}
    (leaf : XlateLeaf s (pageOf a) hit fault f u) (h : Running s (a :: trace))
    (hstep : step s = .next ((u.answered a hit fault f b).retire (xlateInputs trace))) :
    GoesOn s ((u.answered a hit fault f b).retire (xlateInputs trace)) a trace := by
  obtain ⟨m, hm, ha⟩ := h.answers
  obtain ⟨htotal, -, -⟩ := leaf.sameCounters
  have hinv := everyStepKeepsWellFormedness _ _ h.inv hstep
  rw [State.retire_of_answered (State.answered_bsReq ..)] at hstep hinv ⊢
  refine ⟨hstep, ⟨hinv, leaf.halted_eq.trans h.running, rfl, rfl, leaf.answers_left hm ha⟩, leaf.config_eq,
    leaf.ptLookup_eq_none_iff h.inv.tlb, ?_, ?_⟩
  · rw [← leaf.fault_eq h.inv.tlb]
    exact leaf.nextFrame_toNat
  · exact (satAdd_toNat u.totalCount true).trans (by rw [htotal, Bool.toNat_true])

/-- The first translation of a run goes on or runs out of frames: the store answers, and no byte is missing. -/
theorem Running.step_cases {s : State} {a : Arg} {trace : List Arg} (h : Running s (a :: trace)) :
    ∃ t, GoesOn s t a trace ∨ RunsOut s t a trace := by
  obtain ⟨m, hm, ha⟩ := h.answers
  obtain ⟨m, rfl⟩ := Nat.exists_eq_add_of_le' (Nat.le_of_add_left_le hm)
  rw [List.replicate_succ] at ha
  obtain ⟨u, hu⟩ := h.inv.execXlate_next a
  have hstep := step_of_xlate h.inputs h.idle
  rw [hu, retireOutcome] at hstep
  refine ⟨u.retire (xlateInputs trace), ?_⟩
  cases xlateNext_of_execXlate hu with
  | refused hh => exact absurd hh (by simp [h.running])
  | waiting hh ht hp ha' => rw [ha] at ha'; cases ha'
  | ioError hh ht hp ha' => rw [ha] at ha'; cases ha'
  | invalidAddress hh leaf hf => exact absurd (leaf.frame_lt h.inv) (Nat.not_lt.2 hf)
  | ok hh leaf hf hb => exact .inl (leaf.goesOn h hstep)
  | capacityExhausted hh ht hp ha' hn =>
    refine .inr ⟨hstep, rfl, rfl, rfl, ?_, hp, hn, rfl⟩
    exact (if_neg (by simp [hh]) : (if s.halted then s.cause else causeCode .capacityExhausted) = _)

/-! ### The run -/

/-- Saturating after one event and again after `n` more is saturating after all of them. -/
theorem saturate_twice (c n top : Nat) : min (min (c + 1) top + n) top = min (c + (n + 1)) top := by
  omega

/-- A halted block refuses each translation of a run and keeps HALTED, CAUSE and the frames. -/
theorem runSteps_of_halted (trace : List Arg) {s : State} (hh : s.halted = true) (hidle : s.bsReq = none)
    (hin : s.inputs = xlateInputs trace) :
    ∃ t, runSteps trace.length s = .next t ∧ t.inputs = [] ∧ t.halted = true ∧ t.cause = s.cause ∧
      t.nextFrame = s.nextFrame := by
  induction trace generalizing s with
  | nil => exact ⟨s, rfl, hin, hh, rfl, rfl⟩
  | cons a trace ih =>
    have hstep := step_of_xlate hin hidle
    rw [execXlate_of_halted hh, retireOutcome, State.retire_respond] at hstep
    rw [List.length_cons, runSteps, hstep]
    exact ih hh rfl rfl

/-- A run loads its `freshPages`: with frames for all of them it ends running, else halted. -/
theorem Running.run_ends (trace : List Arg) {s : State} (h : Running s trace) :
    ∃ t, runSteps trace.length s = .next t ∧ t.inputs = [] ∧
      (s.nextFrame.toNat + (freshPages s trace).card ≤ s.config.numFrames →
        Inv t ∧ t.halted = false ∧ t.nextFrame.toNat = s.nextFrame.toNat + (freshPages s trace).card ∧
        t.totalCount.toNat = min (s.totalCount.toNat + trace.length) countMax) ∧
      (s.config.numFrames < s.nextFrame.toNat + (freshPages s trace).card →
        t.halted = true ∧ t.cause = 2#3 ∧ t.nextFrame.toNat = s.config.numFrames) := by
  induction trace generalizing s with
  | nil =>
    have htop : s.totalCount.toNat ≤ countMax := Nat.le_of_lt_succ s.totalCount.isLt
    refine ⟨s, rfl, h.inputs, fun _ => ⟨h.inv, h.running, rfl, (Nat.min_eq_left htop).symm⟩, fun hlt => ?_⟩
    exact absurd h.inv.pm.next_le (Nat.not_le.2 hlt)
  | cons a trace ih =>
    obtain ⟨t, hgo | hout⟩ := h.step_cases
    · obtain ⟨v, hv, hin, hgood, hbad⟩ := ih hgo.running
      rw [hgo.config, hgo.frames, Nat.add_assoc, ← card_freshPages_cons hgo.tables] at hgood hbad
      refine ⟨v, by rw [List.length_cons, runSteps, hgo.step_eq]; exact hv, hin, fun hle => ?_, hbad⟩
      obtain ⟨hinv, hrun, hframes, htotal⟩ := hgood hle
      refine ⟨hinv, hrun, hframes, ?_⟩
      rw [htotal, hgo.total, saturate_twice, List.length_cons]
    · obtain ⟨v, hv, hin, hhalted, hcause, hframes⟩ := runSteps_of_halted trace hout.halted hout.idle hout.inputs
      have hpos : 0 < (freshPages s (a :: trace)).card :=
        Finset.card_pos.2 ⟨pageOf a, mem_freshPages.2 ⟨⟨a, List.mem_cons_self, rfl⟩, hout.fresh⟩⟩
      have hfull := hout.full
      refine ⟨v, by rw [List.length_cons, runSteps, hout.step_eq]; exact hv, hin, fun hle => ?_, fun _ => ?_⟩
      · omega
      · exact ⟨hhalted, hcause.trans hout.cause, by
          rw [hframes, hout.frames]; exact Nat.le_antisymm h.inv.pm.next_le hfull⟩

/-- Settles O52: the run of `Running.run_ends`, whose last state counts its faults by its frames as the first does. -/
theorem runLoadsEachDistinctPageOnce : Obligations.RunLoadsEachDistinctPageOnce := by
  intro s trace m h hh hidle hin ha hm fresh
  have hrun : Running s trace := ⟨h, hh, hidle, hin, m, hm, ha⟩
  obtain ⟨t, ht, hdone, hgood, hbad⟩ := hrun.run_ends
  refine ⟨t, ht, hdone, fun hle => ?_, hbad⟩
  obtain ⟨hinv, hrunning, hframes, htotal⟩ := hgood hle
  exact ⟨hrunning, hframes, by rw [hinv.counts.fault_eq, h.counts.fault_eq]; exact hframes, htotal⟩

end Sys2Proof.Machine
end
